-- ==== Sys2Proof/Word.lean ====
section
/-! DEFINITION. The word types. All register values, addresses and data are unsigned 32-bit
words (00_scope.md R11, 30_encoding.md R112). -/

namespace Sys2Proof

/-- `u32` of 00_scope.md R11. -/
abbrev Word := BitVec 32

/-- `u8` of 00_scope.md R11. -/
abbrev Byte := BitVec 8

end Sys2Proof
end

