-- ==== Sys2Proof/Config.lean ====
section
/-! DEFINITION. The parameter table of 00_scope.md R9, each literal under the document's name
for it, and the one free value of the model, the read oracle (20_memory.md R66). -/

namespace Sys2Proof

/-- One element of a trace: a register transaction or a sleep (00_scope.md R13). -/
inductive Event where
  /-- `RD off -> value` -/
  | rd (off value : Word)
  /-- `WR off <- value` -/
  | wr (off value : Word)
  /-- `SLEEP n`, microseconds -/
  | sleep (us : Nat)
  deriving DecidableEq, Repr

/-- `REG_SPACE_SIZE`, 256 KiB. -/
abbrev Config.regSpaceSize : Nat := 0x40000
/-- `REG_ALIGN`. -/
abbrev Config.regAlign : Nat := 4
/-- `OFF_CMD`, the command and status register. -/
abbrev Config.offCmd : Word := 0x260#32
/-- `OFF_DATA`, the data register. -/
abbrev Config.offData : Word := 0x264#32
/-- `OFF_AH`, the address-high register. -/
abbrev Config.offAh : Word := 0x26C#32
/-- `ADDR_MAX`, the largest legal EEPROM byte address. -/
abbrev Config.addrMax : Word := 0x00FFFFFF#32
/-- `ADDR_ALIGN`. -/
abbrev Config.addrAlign : Word := 4#32
/-- `WA_SHIFT`. -/
abbrev Config.waShift : Nat := 2
/-- `LOW_MASK`. -/
abbrev Config.lowMask : Word := 0x1FFF#32
/-- `HI_BIT_MASK`. -/
abbrev Config.hiBitMask : Word := 0x2000#32
/-- `HI_BIT_SHIFT`. -/
abbrev Config.hiBitShift : Nat := 7
/-- `CMD_CLEAR_MASK`, the low 21 bits. -/
abbrev Config.cmdClearMask : Word := 0x001FFFFF#32
/-- `CODE_POS`. -/
abbrev Config.codePos : Nat := 13
/-- `CODE_WIDTH` of 00_scope.md R10, the width of `CMD.CODE` (decision D4). -/
abbrev Config.codeWidth : Nat := 3
/-- `CODE_READ`. -/
abbrev Config.codeRead : BitVec Config.codeWidth := 3#3
/-- `CODE_WREN`. -/
abbrev Config.codeWren : BitVec Config.codeWidth := 6#3
/-- `CODE_WRITE`. -/
abbrev Config.codeWrite : BitVec Config.codeWidth := 2#3
/-- `BUSY_MASK`, bit 18. -/
abbrev Config.busyMask : Word := 0x00040000#32
/-- `AH_BYTE_MASK`. -/
abbrev Config.ahByteMask : Word := 0xFF#32
/-- `AH_RD_SHIFT`. -/
abbrev Config.ahRdShift : Nat := 24
/-- `AH_WR_SHIFT`, applied to the byte address and cut to 8 bits by decision D5 (log entry 6). -/
abbrev Config.ahWrShift : Nat := 14
/-- `POLL_ATTEMPTS`. -/
abbrev Config.pollAttempts : Nat := 100
/-- `POLL_INTERVAL_US`. -/
abbrev Config.pollIntervalUs : Nat := 100
/-- `UNLOCK_WORD_1`. -/
abbrev Config.unlockWord1 : Word := 0x0000A000#32
/-- `UNLOCK_WORD_2`. -/
abbrev Config.unlockWord2 : Word := 0x00002000#32
/-- `UNLOCK_DELAY_US`. -/
abbrev Config.unlockDelayUs : Nat := 1000
/-- `SIGNATURE`. -/
abbrev Config.signature : Byte := 0x5A#8
/-- `RECORD_SIZE`. -/
abbrev Config.recordSize : Nat := 6

/-! The layout of the words CMD and AH (30_encoding.md R92, R93), beside the masks of the table.
That the two agree is Laws/Encoding.lean `config_layout`: an audit of a literal changes this file
alone. -/

/-- The width of `CMD.KEEP`, the bits above `CMD_CLEAR_MASK`. -/
abbrev Config.keepWidth : Nat := 11
/-- The position of `CMD.KEEP`. -/
abbrev Config.keepPos : Nat := 21
/-- The width of `CMD.ADDR_LO`, the bits of `LOW_MASK`. -/
abbrev Config.lowWidth : Nat := 13
/-- The bit of the word address that `HI_BIT_MASK` selects. -/
abbrev Config.hiBitIndex : Nat := 13
/-- The position of `CMD.ADDR_B13`. -/
abbrev Config.hiBitPos : Nat := Config.hiBitIndex + Config.hiBitShift
/-- The position of the bits every command word writes 0, above `CODE`. -/
abbrev Config.zeroPos : Nat := Config.codePos + Config.codeWidth
/-- The number of those bits, up to `ADDR_B13`. -/
abbrev Config.zeroWidth : Nat := Config.hiBitPos - Config.zeroPos
/-- The width of `AH.BYTE`, the bits of `AH_BYTE_MASK`. -/
abbrev Config.ahByteWidth : Nat := 8
/-- The width of `AH.KEEP`. -/
abbrev Config.ahKeepWidth : Nat := 24

/-- The open read oracle `Env` of 20_memory.md R66 (decisions D9, D14): given the history of all
transactions so far and the offset, the word a read returns, under no law. No body: a free value
(log entry 2). -/
opaque Config.readOracle (history : List Event) (off : Word) : Word

end Sys2Proof
end

