-- ==== Sys2Proof/Syntax.lean ====
section
/-! DEFINITION. The instruction type: one constructor per row of spec/opcode_table.json
(30_encoding.md R101). Operand fields are the variable bits of the row. -/

namespace Sys2Proof

/-- The operation selector of a request (10_state.md R20, 30_encoding.md R91). -/
inductive Op where
  | read
  | write
  deriving DecidableEq, Repr

/-- The nine encodings the engine and its client sequences produce (30_encoding.md R101). -/
inductive Instr where
  /-- `READ`: the request `Read(addr)`. `data` is part of the request record and is ignored
  (30_encoding.md R91, 43_operations.md R183). -/
  | read (addr data : Word)
  /-- `WRITE`: the request `Write(addr, data)` (43_operations.md R190). -/
  | write (addr data : Word)
  /-- `CMD.READ`: the read command word at 0x260, fields `KEEP`, `ADDR_B13`, `ADDR_LO`
  (41_command_encoder.md R141). -/
  | cmdRead (keep : BitVec Config.keepWidth) (b13 : BitVec 1) (lo : BitVec Config.lowWidth)
  /-- `CMD.WREN`: the write-enable command word at 0x260 (41_command_encoder.md R142). -/
  | cmdWren (keep : BitVec Config.keepWidth)
  /-- `CMD.WRITE`: the write command word at 0x260 (41_command_encoder.md R143). -/
  | cmdWrite (keep : BitVec Config.keepWidth) (b13 : BitVec 1) (lo : BitVec Config.lowWidth)
  /-- `AH.RD`: the address-high word of a Read at 0x26C, fields `KEEP`, `BYTE`
  (40_address_splitter.md R124, R126). -/
  | ahRd (keep : BitVec Config.ahKeepWidth) (byte : BitVec Config.ahByteWidth)
  /-- `AH.WR`: the address-high word of a Write at 0x26C (40_address_splitter.md R125, R126). -/
  | ahWr (keep : BitVec Config.ahKeepWidth) (byte : BitVec Config.ahByteWidth)
  /-- `UNLOCK1`: the first raw word of the unlock sequence (44_client_sequences.md R221). -/
  | unlock1
  /-- `UNLOCK2`: the second raw word of the unlock sequence (44_client_sequences.md R221). -/
  | unlock2
  deriving DecidableEq, Repr

end Sys2Proof
end

