-- ==== Sys2Proof/WellFormed.lean ====
section
/-! DEFINITION. Well-formed instructions: the fixed bits of an opcode-table row that the
constructor's operand types do not already fix. -/

namespace Sys2Proof

/-- The row `AH.RD` fixes bits 7:0 to 0 (30_encoding.md R101: "bits 7:0 = 0 for every legal
address"). Every other row's operands are free: an illegal `addr` is a well-formed request that
raises AddressingError (30_encoding.md R104). -/
def Instr.wf (i : Instr) : Bool :=
  match i with
  | .read _ _ => true
  | .write _ _ => true
  | .cmdRead _ _ _ => true
  | .cmdWren _ => true
  | .cmdWrite _ _ _ => true
  | .ahRd _ byte => byte == 0#Config.ahByteWidth
  | .ahWr _ _ => true
  | .unlock1 => true
  | .unlock2 => true

end Sys2Proof
end

