-- ==== Sys2Proof/Decode.lean ====
section
/-! DEFINITION. The word formats REQ, CMD, AH and RAW (30_encoding.md R91 to R96), the decoder of
each and the encoder. -/

namespace Sys2Proof

/-- An encoded instruction together with the place it stands in, which selects its format
(30_encoding.md R90; opcode_table.json: an AH word is "selected by context, not by its bits"). -/
inductive Packet where
  /-- A request, in the table's 65-bit layout `op ++ addr ++ data`. -/
  | req (bits : BitVec 65)
  /-- A word written to offset 0x260: format CMD or RAW. -/
  | cmd (w : Word)
  /-- A word written to offset 0x26C during an operation: format AH. -/
  | ah (op : Op) (w : Word)
  deriving DecidableEq, Repr

/-- Why a word at offset 0x260 is none of the five words of 30_encoding.md R101. -/
inductive DecodeError where
  /-- Bits 19:16 are not 0 (30_encoding.md R105). -/
  | reservedBits
  /-- Bits 15:13 are none of 3, 6, 2, or are those of an unlock word that is not whole
  (30_encoding.md R105). -/
  | reservedCode (code : BitVec Config.codeWidth)
  /-- Code 6 with an address field that is not 0 (41_command_encoder.md R142). -/
  | writeEnableFields
  deriving DecidableEq, Repr

/-! The fields of a word of format CMD (30_encoding.md R92). -/

/-- `CMD.KEEP`. -/
abbrev cmdKeep (w : Word) : BitVec Config.keepWidth := w.extractLsb' Config.keepPos Config.keepWidth
/-- `CMD.ADDR_B13`. -/
abbrev cmdB13 (w : Word) : BitVec 1 := w.extractLsb' Config.hiBitPos 1
/-- The bits between `ADDR_B13` and `CODE`, written 0. -/
abbrev cmdZero (w : Word) : BitVec Config.zeroWidth := w.extractLsb' Config.zeroPos Config.zeroWidth
/-- `CMD.CODE`. -/
abbrev cmdCode (w : Word) : BitVec Config.codeWidth := w.extractLsb' Config.codePos Config.codeWidth
/-- `CMD.ADDR_LO`. -/
abbrev cmdLow (w : Word) : BitVec Config.lowWidth := w.extractLsb' 0 Config.lowWidth

/-! The fields of a word of format AH (30_encoding.md R93). -/

/-- `AH.KEEP`. -/
abbrev ahKeep (w : Word) : BitVec Config.ahKeepWidth :=
  w.extractLsb' Config.ahByteWidth Config.ahKeepWidth
/-- `AH.BYTE`. -/
abbrev ahByte (w : Word) : BitVec Config.ahByteWidth := w.extractLsb' 0 Config.ahByteWidth

/-- 30_encoding.md R91: bit 64 is `op`, bits 63:32 `addr`, bits 31:0 `data`. -/
def decodeReq (bits : BitVec 65) : Instr :=
  if bits.getLsbD 64 then .write (bits.extractLsb' 32 32) (bits.extractLsb' 0 32)
  else .read (bits.extractLsb' 32 32) (bits.extractLsb' 0 32)

/-- 30_encoding.md R92, R96 and R101: the five words of offset 0x260. -/
def decodeCmd (w : Word) : Except DecodeError Instr :=
  if w = Config.unlockWord1 then .ok .unlock1
  else if w = Config.unlockWord2 then .ok .unlock2
  else if cmdZero w ≠ 0#Config.zeroWidth then .error .reservedBits
  else if cmdCode w = Config.codeRead then
    .ok (.cmdRead (cmdKeep w) (cmdB13 w) (cmdLow w))
  else if cmdCode w = Config.codeWrite then
    .ok (.cmdWrite (cmdKeep w) (cmdB13 w) (cmdLow w))
  else if cmdCode w = Config.codeWren then
    if cmdB13 w = 0#1 ∧ cmdLow w = 0#Config.lowWidth then
      .ok (.cmdWren (cmdKeep w))
    else .error .writeEnableFields
  else .error (.reservedCode (cmdCode w))

/-- 30_encoding.md R93: bits 31:8 `KEEP`, bits 7:0 `BYTE`; the operation selects the row. -/
def decodeAh (op : Op) (w : Word) : Instr :=
  match op with
  | .read => .ahRd (ahKeep w) (ahByte w)
  | .write => .ahWr (ahKeep w) (ahByte w)

/-- The decoder, total on every packet. -/
def decode (p : Packet) : Except DecodeError Instr :=
  match p with
  | .req bits => .ok (decodeReq bits)
  | .cmd w => decodeCmd w
  | .ah op w => .ok (decodeAh op w)

/-- The instruction an opcode-table row's bits stand for, or none. Up to 32 bits are a register
word, more are a request. The table's register rows overlap when the place is not given: a word
that is one of the five words of offset 0x260 is read as such, any other as an address-high word,
of a Read if its low byte is 0 (log entry 10). -/
def decodeTableWord (nbits w : Nat) : Option Instr :=
  if nbits ≤ 32 then
    if w < 2 ^ 32 then
      match decodeCmd (BitVec.ofNat 32 w) with
      | .ok i => some i
      | .error _ =>
        if (decodeAh .read (BitVec.ofNat 32 w)).wf then some (decodeAh .read (BitVec.ofNat 32 w))
        else some (decodeAh .write (BitVec.ofNat 32 w))
    else none
  else if nbits ≤ 72 ∧ w < 2 ^ 65 then some (decodeReq (BitVec.ofNat 65 w))
  else none

/-! The encoder, from the same tables. -/

/-- 30_encoding.md R91: the operation bit, READ = 0, WRITE = 1. -/
def encodeOp (op : Op) : BitVec 1 :=
  match op with
  | .read => 0#1
  | .write => 1#1

/-- 30_encoding.md R91: `op ++ addr ++ data`. -/
def encodeReq (op : Op) (addr data : Word) : BitVec 65 :=
  encodeOp op ++ addr ++ data

/-- 30_encoding.md R92: `CMD = KEEP ++ ADDR_B13 ++ 0b0000 ++ CODE ++ ADDR_LO`, each field at its
position of the configuration (00_scope.md R9). -/
def encodeCmd (keep : BitVec Config.keepWidth) (b13 : BitVec 1) (code : BitVec Config.codeWidth)
    (lo : BitVec Config.lowWidth) : Word :=
  (keep.setWidth 32 <<< Config.keepPos) ||| (b13.setWidth 32 <<< Config.hiBitPos) |||
    (code.setWidth 32 <<< Config.codePos) ||| lo.setWidth 32

/-- 30_encoding.md R93: `AH = KEEP ++ BYTE`. -/
def encodeAh (keep : BitVec Config.ahKeepWidth) (byte : BitVec Config.ahByteWidth) : Word :=
  (keep.setWidth 32 <<< Config.ahByteWidth) ||| byte.setWidth 32

/-- The encoder: the word of an instruction and the place it stands in. -/
def encode (i : Instr) : Packet :=
  match i with
  | .read addr data => .req (encodeReq .read addr data)
  | .write addr data => .req (encodeReq .write addr data)
  | .cmdRead keep b13 lo => .cmd (encodeCmd keep b13 Config.codeRead lo)
  | .cmdWren keep => .cmd (encodeCmd keep 0#1 Config.codeWren 0#Config.lowWidth)
  | .cmdWrite keep b13 lo => .cmd (encodeCmd keep b13 Config.codeWrite lo)
  | .ahRd keep byte => .ah .read (encodeAh keep byte)
  | .ahWr keep byte => .ah .write (encodeAh keep byte)
  | .unlock1 => .cmd Config.unlockWord1
  | .unlock2 => .cmd Config.unlockWord2

end Sys2Proof
end

