-- ==== Sys2Proof/Machine/State.lean ====
section
/-! DEFINITION. The state of the engine, its environment and its client as plain data
(10_state.md), the reasons a step can stop, and the state after reset (10_state.md R45). -/

namespace Sys2Proof.Machine

/-- The sequencer's phases, under the names of 10_state.md R26. -/
inductive Phase where
  | idle
  | rdAhR | rdAhW | rdCmdR | rdCmdW | rdPoll | rdSleep | rdDataR
  | wrAhR | wrAhW | wrEnR | wrEnW | wrEnPoll | wrEnSleep | wrDataW
  | wrCmdR | wrCmdW | wrPoll | wrSleep
  | fault
  deriving DecidableEq, Repr

/-- The three kinds of poll (42_busy_poll.md R167). -/
inductive PollKind where
  | read
  | writeEnable
  | writeCommit
  deriving DecidableEq, Repr

/-- The two errors the engine raises, with what each records (60_exceptions.md R251, R252). -/
inductive EngineError where
  | addressing (addr : Word)
  | timeout (kind : PollKind)
  deriving DecidableEq, Repr

/-- The values of the latch `OUTCOME` (10_state.md R27). -/
inductive Response where
  /-- `Ok(v)`: a Read ended. -/
  | okValue (v : Word)
  /-- `Ok`: a Write ended. -/
  | ok
  /-- `Fault(e)`. -/
  | fault (e : EngineError)
  deriving DecidableEq, Repr

/-- Bytes at addresses, in the canonical form `Memory.wf` (Machine/Ops.lean). -/
abbrev Memory := List Host.Cell

/-- Whether the reference controller ignores the address-high byte (A) or uses it as word-address
bits 21:14 (B) (95_test_vectors.md section 2). -/
inductive CtlMode where
  | a
  | b
  deriving DecidableEq, Repr

/-- The reference environment `RefCtl` of 95_test_vectors.md section 2: the three controller
registers, the EEPROM content and the polls that will still see busy, with its parameters. -/
structure RefCtl where
  /-- `L`, the polls that see busy after each command write. -/
  polls : Nat
  mode : CtlMode
  /-- If true every read of 0x260 has bit 18 set. -/
  stuck : Bool
  r260 : Word
  r264 : Word
  r26C : Word
  pending : Nat
  /-- The EEPROM content, by EEPROM byte address (20_memory.md R61). -/
  mem : Memory
  deriving DecidableEq, Repr

/-- What answers the reads of the Register Space (20_memory.md R66). -/
inductive Environment where
  /-- The open oracle: the answers already drawn for the coming reads, then
  `Config.readOracle` (log entry 2). -/
  | oracle (answers : List Word)
  /-- The reference controller (log entry 14). -/
  | refCtl (c : RefCtl)
  deriving DecidableEq, Repr

/-- What a client puts into its stream (44_client_sequences.md, 60_exceptions.md R270). -/
inductive Input where
  /-- A request, in the 65-bit layout of 30_encoding.md R91. -/
  | request (bits : BitVec 65)
  /-- The client's own `write_reg(off, w)` (70_reset_and_hazards.md R298). -/
  | rawWrite (off w : Word)
  /-- The client's own `sleep_us(n)`. -/
  | pause (us : Nat)
  /-- `Dump(sink)` (44_client_sequences.md R214). -/
  | dump
  /-- `Restore(source)` (44_client_sequences.md R220). -/
  | restore
  /-- The write-verify loop of `Restore(source)` (44_client_sequences.md R222). -/
  | restoreLoop
  /-- `DecodeLive()` (44_client_sequences.md R230). -/
  | decodeLive
  /-- `DecodeFile(bytes)` on the bytes of `source` (44_client_sequences.md R238). -/
  | decodeFile
  deriving DecidableEq, Repr

/-- Why DecodeFile fails (60_exceptions.md R254). -/
inductive FormatReason where
  | wrongSignature
  | truncatedImage
  deriving DecidableEq, Repr

/-- The client's errors (60_exceptions.md R253 to R255). -/
inductive ClientError where
  | verification (addr written readback : Word)
  | format (why : FormatReason)
  | resource
  deriving DecidableEq, Repr

/-- A configuration record (44_client_sequences.md R236). -/
structure Record where
  header : BitVec 16
  value : Word
  deriving DecidableEq, Repr

/-- What a client sequence reports when it ends. -/
inductive Report where
  /-- Dump has emitted its last word. -/
  | dumped
  /-- Restore: the count of words written (44_client_sequences.md R222). -/
  | restored (count : Nat)
  /-- DecodeLive: the signature is wrong, no output and no error (44_client_sequences.md R230). -/
  | noTable
  /-- DecodeLive, DecodeFile: the records of the table (44_client_sequences.md R236). -/
  | decoded (records : List Record)
  /-- The sequence ended in a client error. -/
  | failed (e : ClientError)
  deriving DecidableEq, Repr

/-- The client sequence in progress and its local variables. A constructor named for a word is
the wait for the outcome of the request that fetches it. -/
inductive Client where
  /-- No sequence: the next input is taken from the stream. -/
  | none
  /-- Dump waits for word 0. -/
  | dumpHead
  /-- Dump waits for the word at `a`; `last` is the last address. -/
  | dumpWord (a last : Nat)
  /-- Restore waits for the Write of `w` at `addr`; `count` words are verified. -/
  | restoreWritten (addr w : Word) (count : Nat)
  /-- Restore waits for the verifying Read at `addr`. -/
  | restoreCheck (addr w : Word) (count : Nat)
  /-- DecodeLive waits for word 0. -/
  | liveHead
  /-- DecodeLive waits for the word at `a`; the table has `n` bytes. -/
  | liveWord (a last n : Nat) (buf : List Byte)
  /-- The client has ended in its own fatal error. -/
  | stopped
  deriving DecidableEq, Repr

/-- Why the machine stops. -/
inductive Fault where
  /-- Raised by a step, and by every instruction, in phase `FAULT`, which is terminal
  (10_state.md R28; 93_implementation_defined.md U6, "stuck: no step"). Safe. -/
  | faultTerminal
  /-- Raised by a step after the client's own fatal error (44_client_sequences.md R224,
  60_exceptions.md R253 to R255). Safe. -/
  | clientStopped
  /-- Raised by a step in which a client sequence waits for an outcome that the engine, back in
  `IDLE`, does not hold. No run from reset reaches it. Safe. -/
  | noResponse
  deriving DecidableEq, Repr

/-- Why an instruction or a step has no meaning. -/
inductive Refusal where
  /-- An instruction without a meaning in exec. Safe. -/
  | notModelled (mnemonic : String)
  /-- Raised by READ and WRITE while an operation runs (70_reset_and_hazards.md R296, D19). Safe. -/
  | requestWhileBusy
  /-- Raised by UNLOCK1 and UNLOCK2 while an operation runs (70_reset_and_hazards.md R298). Safe. -/
  | rawWriteDuringOperation
  /-- Raised by a CMD or AH word while the engine is in a phase of an operation that does not
  issue it (43_operations.md R180). Safe. -/
  | issueOutOfPhase
  /-- Raised by a raw write whose offset is misaligned or outside the Register Space
  (20_memory.md R62, 93_implementation_defined.md U7). Safe. -/
  | badOffset
  /-- Raised by a raw write to 0x260 of a reserved word when the reference controller is the
  environment (30_encoding.md R105, 93_implementation_defined.md U3). Safe. -/
  | reservedCommandWord
  /-- Raised by a step whose packet the decoder rejects; no step fetches such a packet. Safe. -/
  | undecodable (e : DecodeError)
  deriving DecidableEq, Repr

/-- The whole machine. -/
structure State where
  /-- `PHASE` (10_state.md R24). -/
  phase : Phase
  /-- `REQ_OP` (10_state.md R20). -/
  reqOp : Op
  /-- `REQ_ADDR`. -/
  reqAddr : Word
  /-- `REQ_DATA`. -/
  reqData : Word
  /-- `TMP`. -/
  tmp : Word
  /-- `RESULT`. -/
  result : Word
  /-- `ATTEMPT`, 0 to 100 (10_state.md R25). -/
  attempt : Nat
  /-- `OUTCOME` (10_state.md R27); none before the first operation has ended. -/
  outcome : Option Response
  /-- All transactions and sleeps so far, oldest first (00_scope.md R13, 20_memory.md R66). -/
  history : List Event
  /-- What answers reads (20_memory.md R66). -/
  env : Environment
  /-- A usable register port was handed over (70_reset_and_hazards.md R293); what makes no
  transaction goes on without one (log entry 19). -/
  portUsable : Bool
  /-- A usable byte sink was acquired (60_exceptions.md R255). -/
  sinkUsable : Bool
  /-- A usable byte source was acquired (60_exceptions.md R255). -/
  sourceUsable : Bool
  /-- The client's request stream (44_client_sequences.md R210). -/
  inputs : List Input
  /-- The client sequence in progress. -/
  client : Client
  /-- Dump's byte sink (10_state.md R42). -/
  sink : List Byte
  /-- Restore's byte source (10_state.md R42). -/
  source : List Byte
  /-- What the last client sequence reported. -/
  report : Option Report
  deriving DecidableEq, Repr

/-- Reset, the start of an invocation (10_state.md R45, 70_reset_and_hazards.md R290): phase
`IDLE`, no outcome, no transaction made. The latches hold no value in the spec; the values here
are the model's (log entry 1), as are the empty client fields (log entry 3). -/
def State.reset : State :=
  { phase := .idle, reqOp := .read, reqAddr := 0#32, reqData := 0#32, tmp := 0#32,
    result := 0#32, attempt := 0, outcome := none, history := [], env := .oracle [],
    portUsable := true, sinkUsable := true, sourceUsable := true,
    inputs := [], client := .none, sink := [], source := [], report := none }

end Sys2Proof.Machine
end

