-- ==== Sys2Proof/Machine/Ops.lean ====
section
/-! DEFINITION. The named operations: bytes and words, the EEPROM memory, the reference
controller, the register port, the sleep, the raising of an error and the start of a new
invocation. -/

namespace Sys2Proof.Machine

/-! Byte order: little-endian (20_memory.md R61, 44_client_sequences.md R212). -/

/-- The four bytes of a word, low byte first. -/
def wordBytes (w : Word) : List Byte :=
  [w.extractLsb' 0 8, w.extractLsb' 8 8, w.extractLsb' 16 8, w.extractLsb' 24 8]

/-- The word of four bytes, low byte first. -/
def wordOfBytes (b0 b1 b2 b3 : Byte) : Word :=
  b3 ++ b2 ++ b1 ++ b0

/-! The EEPROM content of the reference controller. -/

/-- What an unlisted EEPROM byte reads as: absent words read `0xFFFFFFFF`
(95_test_vectors.md section 2; log entry 14). -/
def Memory.unlisted : Byte := 0xFF#8

/-- The size of the EEPROM address space in bytes (10_state.md R41). -/
def eepromSize : Nat := 2 ^ 24

/-- The canonical form: addresses strictly rise, lie in the EEPROM address space, and no entry
equals what an unlisted address reads as. -/
abbrev Memory.wf (m : Memory) : Prop :=
  (m.map Prod.fst).Pairwise (· < ·) ∧ ∀ c ∈ m, c.1 < eepromSize ∧ c.2 ≠ Memory.unlisted

/-- One byte. -/
def Memory.readByte (m : Memory) (a : Nat) : Byte :=
  match m with
  | [] => Memory.unlisted
  | (k, b) :: rest => if k = a then b else Memory.readByte rest a

/-- Write one byte, keeping the canonical form. -/
def Memory.writeByte (m : Memory) (a : Nat) (b : Byte) : Memory :=
  match m with
  | [] => if b = Memory.unlisted then [] else [(a, b)]
  | (k, c) :: rest =>
    if a < k then (if b = Memory.unlisted then (k, c) :: rest else (a, b) :: (k, c) :: rest)
    else if a = k then (if b = Memory.unlisted then rest else (a, b) :: rest)
    else (k, c) :: Memory.writeByte rest a b

/-- The word at byte address `a`. -/
def Memory.readWord (m : Memory) (a : Nat) : Word :=
  wordOfBytes (m.readByte a) (m.readByte (a + 1)) (m.readByte (a + 2)) (m.readByte (a + 3))

/-- Write the word at byte address `a`. -/
def Memory.writeWord (m : Memory) (a : Nat) (w : Word) : Memory :=
  (((m.writeByte a (w.extractLsb' 0 8)).writeByte (a + 1) (w.extractLsb' 8 8)).writeByte
    (a + 2) (w.extractLsb' 16 8)).writeByte (a + 3) (w.extractLsb' 24 8)

/-! The reference controller (95_test_vectors.md section 2). -/

/-- `idx`: the word index a command word selects, `w[20] ++ w[12:0]`, in mode B below
`r26C[7:0]`. -/
def RefCtl.index (c : RefCtl) (w : Word) : Nat :=
  match c.mode with
  | .a => (cmdB13 w ++ cmdLow w).toNat
  | .b => (ahByte c.r26C ++ cmdB13 w ++ cmdLow w).toNat

/-- `write 0x260 <- w`. -/
def RefCtl.command (c : RefCtl) (w : Word) : RefCtl :=
  let c1 := { c with r260 := w &&& ~~~Config.busyMask, pending := c.polls }
  if cmdCode w = Config.codeRead then
    { c1 with r264 := c.mem.readWord (4 * c.index w) }
  else if cmdCode w = Config.codeWrite then
    { c1 with mem := c.mem.writeWord (4 * c.index w) c.r264 }
  else c1

/-- A write of any register; other offsets are not described (20_memory.md R65) and keep
nothing. -/
def RefCtl.write (c : RefCtl) (off w : Word) : RefCtl :=
  if off = Config.offCmd then c.command w
  else if off = Config.offData then { c with r264 := w }
  else if off = Config.offAh then { c with r26C := w }
  else c

/-- What a read of the command register returns. -/
def RefCtl.status (c : RefCtl) : Word :=
  if c.stuck ∨ 0 < c.pending then c.r260 ||| Config.busyMask else c.r260

/-- The controller after a read: a read of 0x260 that sees busy counts `pending` down. -/
def RefCtl.afterRead (c : RefCtl) (off : Word) : RefCtl :=
  if off = Config.offCmd ∧ c.stuck = false then { c with pending := c.pending - 1 } else c

/-- A command word the fixture gives no effect: code 0, 4 or 7, or bits 19:16 not 0
(30_encoding.md R105, 93_implementation_defined.md U3). -/
def reservedCommand (w : Word) : Bool :=
  cmdZero w != 0#Config.zeroWidth || cmdCode w == 0#3 || cmdCode w == 4#3 || cmdCode w == 7#3

/-! The environment and the register port (20_memory.md R60, R66). -/

/-- The answer to a read, given the history. Offsets the reference controller does not describe
are answered by the open oracle (91_not_in_source.md N18). -/
def Environment.answer (e : Environment) (history : List Event) (off : Word) : Word :=
  match e with
  | .oracle [] => Config.readOracle history off
  | .oracle (v :: _) => v
  | .refCtl c =>
    if off = Config.offCmd then c.status
    else if off = Config.offData then c.r264
    else if off = Config.offAh then c.r26C
    else Config.readOracle history off

/-- The environment after a read has been answered. -/
def Environment.afterRead (e : Environment) (off : Word) : Environment :=
  match e with
  | .oracle answers => .oracle answers.tail
  | .refCtl c => .refCtl (c.afterRead off)

/-- The environment after a write. -/
def Environment.afterWrite (e : Environment) (off w : Word) : Environment :=
  match e with
  | .oracle answers => .oracle answers
  | .refCtl c => .refCtl (c.write off w)

/-- A raw command word the environment refuses: the reference controller, a reserved word
(log entry 13). -/
def Environment.refuses (e : Environment) (w : Word) : Bool :=
  match e with
  | .oracle _ => false
  | .refCtl _ => reservedCommand w

/-- The word `read_reg(off)` returns now. -/
def State.answer (s : State) (off : Word) : Word :=
  s.env.answer s.history off

/-- The state after `read_reg(off)`: one RD event, with its answer. -/
def State.afterRead (s : State) (off : Word) : State :=
  { s with history := s.history ++ [.rd off (s.answer off)], env := s.env.afterRead off }

/-- `write_reg(off, w)`: one WR event; the environment receives the write
(20_memory.md R63, R67). -/
def State.writeReg (s : State) (off w : Word) : State :=
  { s with history := s.history ++ [.wr off w], env := s.env.afterWrite off w }

/-- `sleep_us(n)`: one SLEEP event and nothing else (42_busy_poll.md R166). -/
def State.sleepUs (s : State) (us : Nat) : State :=
  { s with history := s.history ++ [.sleep us] }

/-- The port takes aligned offsets below the size of the Register Space (20_memory.md R62). -/
def offsetOk (off : Word) : Bool :=
  off.toNat % Config.regAlign == 0 && decide (off.toNat < Config.regSpaceSize)

/-- The byte of the EEPROM at an address, where the environment holds one: the reference
controller's content. -/
def State.eepromByte (s : State) (a : Nat) : Option Byte :=
  match s.env with
  | .oracle _ => none
  | .refCtl c => some (c.mem.readByte a)

/-! Errors and the end of an operation. -/

/-- `raise e`: the outcome and the terminal phase, and nothing else (60_exceptions.md R256). -/
def State.raise (s : State) (e : EngineError) : State :=
  { s with outcome := some (.fault e), phase := .fault }

/-- The way out of `FAULT`: reset, a new invocation (60_exceptions.md R260,
70_reset_and_hazards.md R290). The controller is not reset and the port's history goes on
(70_reset_and_hazards.md R292). It is the host's act, no step takes it (log entry 23). -/
def State.newInvocation (s : State) : State :=
  { State.reset with history := s.history, env := s.env }

/-- The end of an operation: the outcome, and back to `IDLE` (70_reset_and_hazards.md R304). -/
def State.complete (s : State) (r : Response) : State :=
  { s with outcome := some r, phase := .idle }

/-- A client's `write_reg` or the port form of a register word: performed between operations
only (70_reset_and_hazards.md R298); in the phase `own` of an operation the engine itself issues
the word and goes on with `after`. -/
def State.issueWord (s : State) (own : Phase) (after : State → State) (off w : Word) :
    Host.Outcome State Fault Refusal :=
  if s.phase = own then .next (after (s.writeReg off w))
  else if s.phase = .idle then .next (s.writeReg off w)
  else if s.phase = .fault then .fault .faultTerminal
  else .refused .issueOutOfPhase

end Sys2Proof.Machine
end

