-- ==== Sys2Proof/Machine/AddressHigh.lean ====
section
/-! DEFINITION. The address-high words AH.RD and AH.WR: the write half of the address-high update
(43_operations.md R184, R191). -/

namespace Sys2Proof.Machine

/-- The sequencer goes on to a phase (10_state.md R24). -/
def State.goTo (phase : Phase) (s : State) : State :=
  { s with phase := phase }

/-- `AH.RD` (40_address_splitter.md R124, 43_operations.md R184). -/
def execAhRd (keep : BitVec Config.ahKeepWidth) (byte : BitVec Config.ahByteWidth)
    (s : State) : Host.Outcome State Fault Refusal :=
  s.issueWord .rdAhW (State.goTo .rdCmdR) Config.offAh (encodeAh keep byte)

/-- `AH.WR` (40_address_splitter.md R125, 43_operations.md R191). -/
def execAhWr (keep : BitVec Config.ahKeepWidth) (byte : BitVec Config.ahByteWidth)
    (s : State) : Host.Outcome State Fault Refusal :=
  s.issueWord .wrAhW (State.goTo .wrEnR) Config.offAh (encodeAh keep byte)

end Sys2Proof.Machine
end

