-- ==== Sys2Proof/Machine/Command.lean ====
section
/-! DEFINITION. The command words CMD.READ, CMD.WREN and CMD.WRITE: the command issue
(43_operations.md R186, R192, R195). -/

namespace Sys2Proof.Machine

/-- After a command word is written the poll counter restarts and the poll begins
(42_busy_poll.md R161). -/
def State.startPoll (poll : Phase) (s : State) : State :=
  { s with attempt := 0, phase := poll }

/-- `CMD.READ` (41_command_encoder.md R141, 43_operations.md R186). -/
def execCmdRead (keep : BitVec Config.keepWidth) (b13 : BitVec 1) (lo : BitVec Config.lowWidth)
    (s : State) : Host.Outcome State Fault Refusal :=
  s.issueWord .rdCmdW (State.startPoll .rdPoll) Config.offCmd
    (encodeCmd keep b13 Config.codeRead lo)

/-- `CMD.WREN` (41_command_encoder.md R142, 43_operations.md R192). -/
def execCmdWren (keep : BitVec Config.keepWidth) (s : State) : Host.Outcome State Fault Refusal :=
  s.issueWord .wrEnW (State.startPoll .wrEnPoll) Config.offCmd
    (encodeCmd keep 0#1 Config.codeWren 0#Config.lowWidth)

/-- `CMD.WRITE` (41_command_encoder.md R143, 43_operations.md R195). -/
def execCmdWrite (keep : BitVec Config.keepWidth) (b13 : BitVec 1) (lo : BitVec Config.lowWidth)
    (s : State) : Host.Outcome State Fault Refusal :=
  s.issueWord .wrCmdW (State.startPoll .wrPoll) Config.offCmd
    (encodeCmd keep b13 Config.codeWrite lo)

end Sys2Proof.Machine
end

