-- ==== Sys2Proof/Machine/Operands.lean ====
section
/-! DEFINITION. The address splitter (40_address_splitter.md), the command encoder
(41_command_encoder.md) and the precondition (43_operations.md R182). -/

namespace Sys2Proof.Machine

/-- `legal(addr)` (43_operations.md R182). -/
def legal (addr : Word) : Bool :=
  decide (addr ≤ Config.addrMax) && addr % Config.addrAlign == 0#32

/-- `wa(addr)`, the word address (40_address_splitter.md R121). -/
def wa (addr : Word) : Word :=
  addr >>> Config.waShift

/-- `lo13(addr)`, the low field (40_address_splitter.md R122). -/
def lo13 (addr : Word) : Word :=
  wa addr &&& Config.lowMask

/-- `b13_at20(addr)`, word-address bit 13 at command bit 20 (40_address_splitter.md R123). -/
def b13At20 (addr : Word) : Word :=
  (wa addr &&& Config.hiBitMask) <<< Config.hiBitShift

/-- `ah_rd_byte(addr)` (40_address_splitter.md R124). -/
def ahRdByte (addr : Word) : BitVec Config.ahByteWidth :=
  (addr >>> Config.ahRdShift).setWidth Config.ahByteWidth

/-- `ah_wr_byte(addr)` (40_address_splitter.md R125, decision D5, log entry 6). -/
def ahWrByte (addr : Word) : BitVec Config.ahByteWidth :=
  (addr >>> Config.ahWrShift).setWidth Config.ahByteWidth

/-- `ah_word(old, byte)` (40_address_splitter.md R126). -/
def ahWord (old : Word) (byte : BitVec Config.ahByteWidth) : Word :=
  (old &&& ~~~Config.ahByteMask) ||| byte.setWidth 32

/-- `cmd_word(old, code, lo, b13at20)` (41_command_encoder.md R140). -/
def cmdWord (old : Word) (code : BitVec Config.codeWidth) (lo b13at20 : Word) : Word :=
  (old &&& ~~~Config.cmdClearMask) ||| b13at20 ||| (code.setWidth 32 <<< Config.codePos) ||| lo

/-- `cmd_read(old, addr)` (41_command_encoder.md R141). -/
def cmdReadWord (old addr : Word) : Word :=
  cmdWord old Config.codeRead (lo13 addr) (b13At20 addr)

/-- `cmd_wren(old)` (41_command_encoder.md R142, decision D6, log entry 7). -/
def cmdWrenWord (old : Word) : Word :=
  cmdWord old Config.codeWren 0#32 0#32

/-- `cmd_write(old, addr)` (41_command_encoder.md R143). -/
def cmdWriteWord (old addr : Word) : Word :=
  cmdWord old Config.codeWrite (lo13 addr) (b13At20 addr)

end Sys2Proof.Machine
end

