-- ==== Sys2Proof/Machine/Request.lean ====
section
/-! DEFINITION. The requests READ and WRITE: acceptance in phase IDLE (43_operations.md R181). -/

namespace Sys2Proof.Machine

/-- The first phase of an operation (10_state.md R26). -/
def firstPhase (op : Op) : Phase :=
  match op with
  | .read => .rdAhR
  | .write => .wrAhR

/-- Acceptance (43_operations.md R181): the request is latched, its data for a READ too as the
rule's pseudocode has it (what a client puts there is log entry 26), then checked. A request presented
while an operation runs has no step (70_reset_and_hazards.md R296, D19), nor has one in `FAULT`
(10_state.md R28). -/
def State.accept (s : State) (op : Op) (addr data : Word) :
    Host.Outcome State Fault Refusal :=
  if s.phase = .idle then
    let s1 := { s with reqOp := op, reqAddr := addr, reqData := data }
    .next (if legal addr then { s1 with phase := firstPhase op } else s1.raise (.addressing addr))
  else if s.phase = .fault then .fault .faultTerminal
  else .refused .requestWhileBusy

/-- `READ` (43_operations.md R183, first step). -/
def execRead (addr data : Word) (s : State) : Host.Outcome State Fault Refusal :=
  s.accept .read addr data

/-- `WRITE` (43_operations.md R190, first step). -/
def execWrite (addr data : Word) (s : State) : Host.Outcome State Fault Refusal :=
  s.accept .write addr data

end Sys2Proof.Machine
end

