-- ==== Sys2Proof/Machine/Unlock.lean ====
section
/-! DEFINITION. The raw words UNLOCK1 and UNLOCK2, written whole by the client between operations
(44_client_sequences.md R221, 70_reset_and_hazards.md R298). -/

namespace Sys2Proof.Machine

/-- The client's own write of a whole word to 0x260: no preceding read, no bits preserved, no
poll (44_client_sequences.md R221). -/
def State.rawCommand (s : State) (w : Word) : Host.Outcome State Fault Refusal :=
  if s.phase = .idle then .next (s.writeReg Config.offCmd w)
  else if s.phase = .fault then .fault .faultTerminal
  else .refused .rawWriteDuringOperation

/-- `UNLOCK1`. -/
def execUnlock1 (s : State) : Host.Outcome State Fault Refusal :=
  s.rawCommand Config.unlockWord1

/-- `UNLOCK2`. -/
def execUnlock2 (s : State) : Host.Outcome State Fault Refusal :=
  s.rawCommand Config.unlockWord2

end Sys2Proof.Machine
end

