-- ==== Sys2Proof/Machine/Dispatch.lean ====
section
/-! DEFINITION. One arm per constructor of Instr, each a call of its meaning. -/

namespace Sys2Proof.Machine

def exec (i : Instr) (s : State) : Host.Outcome State Fault Refusal :=
  match i with
  | .read addr data => Sys2Proof.Machine.execRead addr data s
  | .write addr data => Sys2Proof.Machine.execWrite addr data s
  | .cmdRead keep b13 lo => Sys2Proof.Machine.execCmdRead keep b13 lo s
  | .cmdWren keep => Sys2Proof.Machine.execCmdWren keep s
  | .cmdWrite keep b13 lo => Sys2Proof.Machine.execCmdWrite keep b13 lo s
  | .ahRd keep byte => Sys2Proof.Machine.execAhRd keep byte s
  | .ahWr keep byte => Sys2Proof.Machine.execAhWr keep byte s
  | .unlock1 => Sys2Proof.Machine.execUnlock1 s
  | .unlock2 => Sys2Proof.Machine.execUnlock2 s

end Sys2Proof.Machine
end

