-- ==== Sys2Proof/Machine/Flags.lean ====
section
/-! DEFINITION. The one flag the engine tests, the busy flag of the command register, and the
status a client reads, the latch OUTCOME. -/

namespace Sys2Proof.Machine

/-- The busy flag of a value read from 0x260 (10_state.md R29, 42_busy_poll.md R162). -/
def busy (v : Word) : Bool :=
  v &&& Config.busyMask != 0#32

/-- The word a Read has handed to the client (10_state.md R27). -/
def State.wordResponse (s : State) : Option Word :=
  match s.outcome with
  | some (.okValue v) => some v
  | some .ok => none
  | some (.fault _) => none
  | none => none

end Sys2Proof.Machine
end

