-- ==== Sys2Proof/Machine/Image.lean ====
section
/-! DEFINITION. The EEPROM image as the client sequences read it: header, table length, records,
port labels, DecodeFile and the rows of Render (44_client_sequences.md R211, R213, R236 to R240). -/

namespace Sys2Proof.Machine

/-- `sig(w0) = w0 & 0xFF` is the valid signature (44_client_sequences.md R211). -/
def signatureOk (w0 : Word) : Bool :=
  w0.extractLsb' 0 8 == Config.signature

/-- `n(w0) = w0 >> 16`, the table's byte length (44_client_sequences.md R211). -/
def tableLength (w0 : Word) : Nat :=
  (w0 >>> 16).toNat

/-- `roundup(n, 4) = ((n + 3) >> 2) << 2` (44_client_sequences.md R213). -/
def roundup4 (n : Nat) : Nat :=
  ((n + 3) >>> 2) <<< 2

/-- Byte `i` of a list; every use below is inside the list. -/
def byteAt (bytes : List Byte) (i : Nat) : Byte :=
  bytes[i]?.getD 0#8

/-- The record at the head of the bytes: a 16-bit header and a 32-bit value, both little-endian
(44_client_sequences.md R236). -/
def recordAt (bytes : List Byte) : Record :=
  { header := byteAt bytes 1 ++ byteAt bytes 0,
    value := wordOfBytes (byteAt bytes 2) (byteAt bytes 3) (byteAt bytes 4) (byteAt bytes 5) }

/-- The first `count` records. -/
def takeRecords (count : Nat) (bytes : List Byte) : List Record :=
  match count with
  | 0 => []
  | k + 1 => recordAt bytes :: takeRecords k (bytes.drop Config.recordSize)

/-- The records of the table bytes, `floor(n / RECORD_SIZE)` of them, any remainder ignored
(44_client_sequences.md R236). -/
def decodeRecords (table : List Byte) : List Record :=
  takeRecords (table.length / Config.recordSize) table

/-- `pc = h[15:10]` (44_client_sequences.md R236). -/
def Record.portCode (r : Record) : BitVec 6 :=
  r.header.extractLsb' 10 6

/-- The register byte offset, `h[9:0] * 4` (44_client_sequences.md R236). -/
def Record.regOffset (r : Record) : Nat :=
  (r.header.extractLsb' 0 10).toNat * 4

/-- The port-code labels (44_client_sequences.md R237); their texts are not all in the source. -/
inductive PortLabel where
  /-- "A-LUT", lane. -/
  | aLut (lane : BitVec 2)
  /-- "DMA RAM". -/
  | dmaRam
  /-- "DMA", unit. -/
  | dma (unit : BitVec 3)
  /-- Station port `S{n}P0`. -/
  | station (n : BitVec 3)
  /-- NT port: lane, and `V` (true) or `L`. -/
  | nt (lane : BitVec 1) (v : Bool)
  /-- The raw code, printed as a number. -/
  | raw (pc : BitVec 6)
  deriving DecidableEq, Repr

/-- The label of a port code, tested in the document's order (44_client_sequences.md R237). -/
def portLabel (pc : BitVec 6) : PortLabel :=
  if pc &&& 0x38#6 = 0x20#6 then .aLut (pc.extractLsb' 0 2)
  else if pc = 0x2C#6 then .dmaRam
  else if pc &&& 0x38#6 = 0x28#6 then .dma (pc.extractLsb' 0 3)
  else if pc &&& 0x38#6 = 0x30#6 then .station (pc.extractLsb' 0 3)
  else if pc &&& 0x38#6 = 0x38#6 then .nt (pc.extractLsb' 1 1) (pc.getLsbD 0)
  else .raw pc

/-- `DecodeFile(bytes)` (44_client_sequences.md R238). A buffer too short for its first word has a
missing or wrong signature byte, or is truncated (60_exceptions.md R254, log entry 22). -/
def decodeFile (bytes : List Byte) : Except FormatReason (List Record) :=
  match bytes with
  | b0 :: b1 :: b2 :: b3 :: rest =>
    let w0 := wordOfBytes b0 b1 b2 b3
    if signatureOk w0 then
      if tableLength w0 ≤ rest.length then .ok (decodeRecords (rest.take (tableLength w0)))
      else .error .truncatedImage
    else .error .wrongSignature
  | b0 :: _ => if b0 = Config.signature then .error .truncatedImage else .error .wrongSignature
  | [] => .error .wrongSignature

/-- One row of Render's report: index, label, register byte offset, value
(44_client_sequences.md R239). The index is the record's number from 0 (log entry 22). -/
structure Row where
  index : Nat
  port : PortLabel
  reg : Nat
  value : Word
  deriving DecidableEq, Repr

/-- The rows from an index on. -/
def renderFrom (index : Nat) (records : List Record) : List Row :=
  match records with
  | [] => []
  | r :: rest =>
    { index := index, port := portLabel r.portCode, reg := r.regOffset, value := r.value } ::
      renderFrom (index + 1) rest

/-- `Render(records)` (44_client_sequences.md R239). The spec says "print index" and does not say
which index the first row prints. DESIGN CHOICE: 0 (log entry 22). -/
def render (records : List Record) : List Row :=
  renderFrom 0 records

end Sys2Proof.Machine
end

