-- ==== Sys2Proof/Machine/Client.lean ====
section
/-! DEFINITION. The client: single requests, raw writes and the sequences Dump, Unlock, Restore,
DecodeLive and DecodeFile (44_client_sequences.md). It moves in phase IDLE only. -/

namespace Sys2Proof.Machine

/-- What the client does in a step: it makes one request or raw command write, one other port
write, one sleep, or a move without a transaction; or it cannot go on. The state is the one in
which that is done. -/
inductive ClientMove where
  /-- An encoded word is presented: a request, or a raw word for 0x260. -/
  | present (p : Packet) (s : State)
  /-- Any other raw write through the port. -/
  | portWrite (off w : Word) (s : State)
  /-- A sleep. -/
  | pause (us : Nat) (s : State)
  /-- No transaction. -/
  | quiet (s : State)
  | stop (f : Fault)
  | refuse (r : Refusal)

/-- `Unlock()` as the inputs it expands to (44_client_sequences.md R221). -/
def unlockSequence : List Input :=
  [.rawWrite Config.offCmd Config.unlockWord1, .pause Config.unlockDelayUs,
   .rawWrite Config.offCmd Config.unlockWord2, .pause Config.unlockDelayUs]

/-- `Restore(source)` as the inputs it expands to (44_client_sequences.md R220). -/
def restoreSequence : List Input :=
  unlockSequence ++ [.restoreLoop]

/-- Present `Read(addr)`, then wait as `c`. The spec gives a Read no data and says that a request's
data is ignored for READ (30_encoding.md R91), so it does not say what the client puts into that
field, which acceptance latches all the same (43_operations.md R181). DESIGN CHOICE: 0 (log
entry 26). -/
def State.requestRead (s : State) (addr : Word) (c : Client) : ClientMove :=
  .present (.req (encodeReq .read addr 0#32)) { s with client := c }

/-- Present `Write(addr, w)`, then wait as `c`. -/
def State.requestWrite (s : State) (addr w : Word) (c : Client) : ClientMove :=
  .present (.req (encodeReq .write addr w)) { s with client := c }

/-- The sequence is over. -/
def State.finish (s : State) (r : Report) : ClientMove :=
  .quiet { s with client := .none, report := some r }

/-- The client's own fatal error (60_exceptions.md R253 to R255). -/
def State.fail (s : State) (e : ClientError) : ClientMove :=
  .quiet { s with client := .stopped, report := some (.failed e) }

/-- `emit(sink, w)`: four bytes, low byte first (44_client_sequences.md R212). -/
def State.emit (s : State) (w : Word) : State :=
  { s with sink := s.sink ++ wordBytes w }

/-- Dump's loop head (44_client_sequences.md R214). -/
def State.dumpNext (s : State) (a last : Nat) : ClientMove :=
  if a ≤ last then s.requestRead (BitVec.ofNat 32 a) (.dumpWord a last)
  else s.finish .dumped

/-- Dump after word 0: a wrong signature makes the length 0 (44_client_sequences.md R214). -/
def State.dumpStart (s : State) (w0 : Word) : ClientMove :=
  (s.emit w0).dumpNext 4 (roundup4 (if signatureOk w0 then tableLength w0 else 0))

/-- Restore's loop head: the next source word is written; a final read of fewer than four bytes
ends the loop and is not written (44_client_sequences.md R222, R223, decision D18). -/
def State.restoreNext (s : State) (addr : Word) (count : Nat) : ClientMove :=
  match s.source with
  | b0 :: b1 :: b2 :: b3 :: rest =>
    State.requestWrite { s with source := rest } addr (wordOfBytes b0 b1 b2 b3)
      (.restoreWritten addr (wordOfBytes b0 b1 b2 b3) count)
  | _ => State.finish { s with source := [] } (.restored count)

/-- Restore's comparison (44_client_sequences.md R224). -/
def State.restoreVerify (s : State) (addr w : Word) (count : Nat) (r : Word) : ClientMove :=
  if r = w then s.restoreNext (addr + 4#32) (count + 1)
  else s.fail (.verification addr w r)

/-- DecodeLive's loop head (44_client_sequences.md R230). -/
def State.liveNext (s : State) (a last n : Nat) (buf : List Byte) : ClientMove :=
  if a ≤ last then s.requestRead (BitVec.ofNat 32 a) (.liveWord a last n buf)
  else s.finish (.decoded (decodeRecords (buf.take n)))

/-- DecodeLive after word 0 (44_client_sequences.md R230). -/
def State.liveStart (s : State) (w0 : Word) : ClientMove :=
  if signatureOk w0 then s.liveNext 4 (roundup4 (tableLength w0)) (tableLength w0) []
  else s.finish .noTable

/-- The client's own `write_reg(off, w)` (60_exceptions.md R270): refused off the Register Space
(20_memory.md R62); a word the decoder knows at 0x260 is presented as that instruction; a word
reserved there (30_encoding.md R105) is refused by the reference controller
(93_implementation_defined.md U3) and written where the oracle answers (log entry 13). -/
def State.rawWrite (s : State) (off w : Word) : ClientMove :=
  if offsetOk off then
    if off = Config.offCmd then
      match decodeCmd w with
      | .ok _ => .present (.cmd w) s
      | .error _ =>
        if s.env.refuses w then .refuse .reservedCommandWord else .portWrite off w s
    else .portWrite off w s
  else .refuse .badOffset

/-- The register port, sink and source an input uses are usable. DecodeFile never touches the
engine (44_client_sequences.md R238) and a sleep makes no transaction (42_busy_poll.md R166), so
neither needs the port. Which handle each sequence needs is log entry 19. -/
def State.ready (s : State) (x : Input) : Bool :=
  match x with
  | .request _ => s.portUsable
  | .rawWrite _ _ => s.portUsable
  | .pause _ => true
  | .dump => s.portUsable && s.sinkUsable
  | .restore => s.portUsable && s.sourceUsable
  | .restoreLoop => s.portUsable && s.sourceUsable
  | .decodeLive => s.portUsable
  | .decodeFile => s.sourceUsable

/-- An unusable register space or handle is an immediate fatal precondition, before any request
(60_exceptions.md R255; log entry 19). -/
def State.needing (s : State) (usable : Bool) (move : ClientMove) : ClientMove :=
  if usable then move else s.fail .resource

/-- `Restore(source)`: the first unlock word; the rest of the sequence goes before the stream
(44_client_sequences.md R220). -/
def State.restoreStart (s : State) : ClientMove :=
  State.rawWrite { s with inputs := restoreSequence.tail ++ s.inputs } Config.offCmd
    Config.unlockWord1

/-- DecodeFile on the bytes of the source, which it leaves as they are (44_client_sequences.md
R238; log entry 22). -/
def State.fileDecode (s : State) : ClientMove :=
  match decodeFile s.source with
  | .ok records => s.finish (.decoded records)
  | .error why => s.fail (.format why)

/-- What the client does with an input it has taken off the stream. -/
def State.start (s : State) (x : Input) : ClientMove :=
  match x with
  | .request bits => .present (.req bits) s
  | .rawWrite off w => s.rawWrite off w
  | .pause us => .pause us s
  | .dump => s.requestRead 0#32 .dumpHead
  | .restore => s.restoreStart
  | .restoreLoop => s.restoreNext 0#32 0
  | .decodeLive => s.requestRead 0#32 .liveHead
  | .decodeFile => s.fileDecode

/-- The next input of the stream, when no sequence is in progress. An empty stream is the wait
for a request (10_state.md R26), which uses no handle. -/
def State.nextInput (s : State) : ClientMove :=
  match s.inputs with
  | [] => .quiet s
  | x :: rest =>
    State.needing { s with inputs := rest } (s.ready x) (State.start { s with inputs := rest } x)

/-- The client goes on with the word its Read returned. -/
def State.withWord (s : State) (k : Word → ClientMove) : ClientMove :=
  match s.wordResponse with
  | some v => k v
  | none => .stop .noResponse

/-- The client's move in phase IDLE. -/
def clientMove (s : State) : ClientMove :=
  match s.client with
  | .stopped => .stop .clientStopped
  | .none => s.nextInput
  | .dumpHead => s.withWord s.dumpStart
  | .dumpWord a last => s.withWord (fun v => (s.emit v).dumpNext (a + 4) last)
  | .restoreWritten addr w count =>
    if s.outcome = some .ok then s.requestRead addr (.restoreCheck addr w count)
    else .stop .noResponse
  | .restoreCheck addr w count => s.withWord (s.restoreVerify addr w count)
  | .liveHead => s.withWord s.liveStart
  | .liveWord a last n buf =>
    s.withWord (fun v => s.liveNext (a + 4) last n (buf ++ wordBytes v))

end Sys2Proof.Machine
end

