-- ==== Sys2Proof/Machine/Poll.lean ====
section
/-! DEFINITION. The busy-poll timeout state machine (42_busy_poll.md). -/

namespace Sys2Proof.Machine

/-- One attempt (42_busy_poll.md R162): read 0x260, count, and go to the sleep phase if the busy
flag is set; otherwise the poll ends and the operation goes on with `onClear`. -/
def State.pollAttempt (s : State) (sleepPhase : Phase) (onClear : State → State) : State :=
  let s1 := { s.afterRead Config.offCmd with attempt := s.attempt + 1 }
  if busy (s.answer Config.offCmd) then { s1 with phase := sleepPhase } else onClear s1

/-- The sleep after a busy attempt, the 100th included (decision D8, log entry 8), then the next
attempt or the timeout (42_busy_poll.md R164, R165). -/
def State.pollSleep (s : State) (kind : PollKind) (pollPhase : Phase) : State :=
  let s1 := s.sleepUs Config.pollIntervalUs
  if s.attempt = Config.pollAttempts then s1.raise (.timeout kind)
  else { s1 with phase := pollPhase }

end Sys2Proof.Machine
end

