-- ==== Sys2Proof/Machine/Sequencer.lean ====
section
/-! DEFINITION. The sequencer: which encoded word the engine issues in a phase, what it does in
the phases that issue none, and how a table word is placed so that the next step runs it. -/

namespace Sys2Proof.Machine

/-- The encoded word the engine issues in the present phase (43_operations.md R184, R186, R191,
R192, R195); none in a phase that reads, polls, sleeps or writes the data register. -/
def issuedPacket (s : State) : Option Packet :=
  match s.phase with
  | .rdAhW => some (.ah .read (ahWord s.tmp (ahRdByte s.reqAddr)))
  | .rdCmdW => some (.cmd (cmdReadWord s.tmp s.reqAddr))
  | .wrAhW => some (.ah .write (ahWord s.tmp (ahWrByte s.reqAddr)))
  | .wrEnW => some (.cmd (cmdWrenWord s.tmp))
  | .wrCmdW => some (.cmd (cmdWriteWord s.tmp s.reqAddr))
  | _ => none

/-- The read half of a read-modify-write: `TMP <- read_reg(off)` (10_state.md R22). -/
def State.latchTmp (s : State) (off : Word) (next : Phase) : State :=
  { s.afterRead off with tmp := s.answer off, phase := next }

/-- Phase `RD_DATA_R` (43_operations.md R188): RESULT and OUTCOME take the word read. -/
def State.readData (s : State) : State :=
  State.complete { s.afterRead Config.offData with result := s.answer Config.offData }
    (.okValue (s.answer Config.offData))

/-- Phase `WR_DATA_W` (43_operations.md R194). -/
def State.writeData (s : State) : State :=
  { s.writeReg Config.offData s.reqData with phase := .wrCmdR }

/-- The engine's step in a phase of an operation that issues no encoded word (10_state.md R26).
`IDLE`, `FAULT` and the issuing phases are not its own: they leave the state as it is. -/
def engineMicroStep (s : State) : State :=
  match s.phase with
  | .rdAhR => s.latchTmp Config.offAh .rdAhW
  | .rdCmdR => s.latchTmp Config.offCmd .rdCmdW
  | .rdPoll => s.pollAttempt .rdSleep (fun t => { t with phase := .rdDataR })
  | .rdSleep => s.pollSleep .read .rdPoll
  | .rdDataR => s.readData
  | .wrAhR => s.latchTmp Config.offAh .wrAhW
  | .wrEnR => s.latchTmp Config.offCmd .wrEnW
  | .wrEnPoll => s.pollAttempt .wrEnSleep (fun t => { t with phase := .wrDataW })
  | .wrEnSleep => s.pollSleep .writeEnable .wrEnPoll
  | .wrDataW => s.writeData
  | .wrCmdR => s.latchTmp Config.offCmd .wrCmdW
  | .wrPoll => s.pollAttempt .wrSleep (fun t => t.complete .ok)
  | .wrSleep => s.pollSleep .writeCommit .wrPoll
  | .idle => s
  | .rdAhW => s
  | .rdCmdW => s
  | .wrAhW => s
  | .wrEnW => s
  | .wrCmdW => s
  | .fault => s

/-- A word of 0x260 with the given preserved bits. -/
def keptCommand (keep : BitVec Config.keepWidth) : Word :=
  encodeCmd keep 0#1 0#Config.codeWidth 0#Config.lowWidth

/-- A word of 0x26C with the given preserved bits. -/
def keptAddressHigh (keep : BitVec Config.ahKeepWidth) : Word :=
  encodeAh keep 0#Config.ahByteWidth

/-- An address with the given command-word fields (41_command_encoder.md R145). -/
def placedAddr (b13 : BitVec 1) (lo : BitVec Config.lowWidth) : Word :=
  ((b13.setWidth 32 <<< Config.hiBitIndex) ||| lo.setWidth 32) <<< Config.waShift

/-- Place an instruction where the next step runs it (log entry 12): a request or an unlock word
at the head of the client's stream, in `IDLE` with no sequence in progress and a usable port; a
word the engine issues by putting the sequencer into its phase, with the latches from which the
engine forms exactly that word. -/
def State.place (s : State) (i : Instr) : State :=
  match i with
  | .read addr data =>
    { s with phase := .idle, client := .none, portUsable := true,
             inputs := .request (encodeReq .read addr data) :: s.inputs }
  | .write addr data =>
    { s with phase := .idle, client := .none, portUsable := true,
             inputs := .request (encodeReq .write addr data) :: s.inputs }
  | .cmdRead keep b13 lo =>
    { s with phase := .rdCmdW, tmp := keptCommand keep, reqOp := .read, reqAddr := placedAddr b13 lo }
  | .cmdWren keep =>
    { s with phase := .wrEnW, tmp := keptCommand keep, reqOp := .write }
  | .cmdWrite keep b13 lo =>
    { s with phase := .wrCmdW, tmp := keptCommand keep, reqOp := .write, reqAddr := placedAddr b13 lo }
  | .ahRd keep byte =>
    { s with phase := .rdAhW, tmp := keptAddressHigh keep, reqOp := .read,
             reqAddr := byte.setWidth 32 <<< Config.ahRdShift }
  | .ahWr keep byte =>
    { s with phase := .wrAhW, tmp := keptAddressHigh keep, reqOp := .write,
             reqAddr := byte.setWidth 32 <<< Config.ahWrShift }
  | .unlock1 =>
    { s with phase := .idle, client := .none, portUsable := true,
             inputs := .rawWrite Config.offCmd Config.unlockWord1 :: s.inputs }
  | .unlock2 =>
    { s with phase := .idle, client := .none, portUsable := true,
             inputs := .rawWrite Config.offCmd Config.unlockWord2 :: s.inputs }

end Sys2Proof.Machine
end

