-- ==== Sys2Proof/Machine/Fetch.lean ====
section
/-! DEFINITION. Which encoded instruction the next step runs, and what a step does when there is
none. -/

namespace Sys2Proof.Machine

/-- The encoded instruction of the next step and the state it is run in: in `IDLE` what the
client presents, in an operation the word the engine issues. -/
def fetch (s : State) : Option (Packet × State) :=
  if s.phase = .idle then
    match clientMove s with
    | .present p t => some (p, t)
    | _ => none
  else
    match issuedPacket s with
    | some p => some (p, s)
    | none => none

/-- The client's move when it presents no encoded instruction. -/
def quietClientStep (s : State) : Host.Outcome State Fault Refusal :=
  match clientMove s with
  | .present _ t => .next t
  | .portWrite off w t => .next (t.writeReg off w)
  | .pause us t => .next (t.sleepUs us)
  | .quiet t => .next t
  | .stop f => .fault f
  | .refuse r => .refused r

/-- A step that runs no encoded instruction. `FAULT` has no step (10_state.md R28). -/
def microStep (s : State) : Host.Outcome State Fault Refusal :=
  if s.phase = .idle then quietClientStep s
  else if s.phase = .fault then .fault .faultTerminal
  else .next (engineMicroStep s)

end Sys2Proof.Machine
end

