-- ==== Sys2Proof/Machine/Step.lean ====
section
/-! DEFINITION. One step of the machine: one register transaction or one sleep, or a step without
a transaction (92_eei_decisions.md D2). -/

namespace Sys2Proof.Machine

/-- One step. -/
def step (s : State) : Host.Outcome State Fault Refusal :=
  match fetch s with
  | some (p, t) =>
    match decode p with
    | .ok i => exec i t
    | .error e => .refused (.undecodable e)
  | none => microStep s

/-- The instruction with the table's bits `w`, placed where the next step runs it (log entry 12);
a word no row has changes nothing. -/
def State.withFetchWord (s : State) (nbits w : Nat) : State :=
  match decodeTableWord nbits w with
  | some i => s.place i
  | none => s

end Sys2Proof.Machine
end

