-- ==== Sys2Proof/Safety.lean ====
section
/-! DEFINITION. The terms claims are stated in: runs, observations, named premises
(70_reset_and_hazards.md R306), the transactions of an operation and the invariants. -/

namespace Sys2Proof

/-- A register transaction, not a sleep. -/
def Event.isTransaction (e : Event) : Bool :=
  match e with
  | .rd _ _ => true
  | .wr _ _ => true
  | .sleep _ => false

/-- An event the engine may make: a transaction at one of its three offsets, or the poll's sleep
(10_state.md R40). -/
def Event.ofEngine (e : Event) : Bool :=
  match e with
  | .rd off _ => off == Config.offCmd || off == Config.offData || off == Config.offAh
  | .wr off _ => off == Config.offCmd || off == Config.offData || off == Config.offAh
  | .sleep us => us == Config.pollIntervalUs

namespace Machine

/-- `n` steps of the machine. -/
def runSteps (n : Nat) (s : State) : Host.Outcome State Fault Refusal :=
  Sys2Proof.core.run n s

/-- What a claim about the engine observes: the trace and the outcome (00_scope.md R18). -/
def observe (o : Host.Outcome State Fault Refusal) : Option (List Event × Option Response) :=
  match o with
  | .next t => some (t.history, t.outcome)
  | .fault _ => none
  | .refused _ => none

/-- The client is about to present a single request: premise `Idle` of 70_reset_and_hazards.md
R306, with the request at the head of the stream. -/
def Presents (s : State) (op : Op) (addr data : Word) (rest : List Input) : Prop :=
  s.phase = .idle ∧ s.client = .none ∧ s.portUsable = true ∧
    s.inputs = .request (encodeReq op addr data) :: rest

/-- An operation has ended in success (70_reset_and_hazards.md R304 (a)). -/
def EndedOk (s : State) : Prop :=
  s.phase = .idle ∧ (s.outcome = some .ok ∨ ∃ v, s.outcome = some (.okValue v))

/-- An operation has ended in a fault (70_reset_and_hazards.md R304 (b)). -/
def EndedInFault (s : State) : Prop :=
  s.phase = .fault ∧ ∃ e, s.outcome = some (.fault e)

/-! The phases by what they belong to (10_state.md R26). -/

/-- A phase of a Read in progress. -/
def Phase.ofRead (p : Phase) : Bool :=
  match p with
  | .rdAhR | .rdAhW | .rdCmdR | .rdCmdW | .rdPoll | .rdSleep | .rdDataR => true
  | .wrAhR | .wrAhW | .wrEnR | .wrEnW | .wrEnPoll | .wrEnSleep | .wrDataW
  | .wrCmdR | .wrCmdW | .wrPoll | .wrSleep | .idle | .fault => false

/-- A phase of a Write in progress. -/
def Phase.ofWrite (p : Phase) : Bool :=
  match p with
  | .wrAhR | .wrAhW | .wrEnR | .wrEnW | .wrEnPoll | .wrEnSleep | .wrDataW
  | .wrCmdR | .wrCmdW | .wrPoll | .wrSleep => true
  | .rdAhR | .rdAhW | .rdCmdR | .rdCmdW | .rdPoll | .rdSleep | .rdDataR | .idle | .fault => false

/-- A phase that polls. -/
def Phase.isPoll (p : Phase) : Bool :=
  p == .rdPoll || p == .wrEnPoll || p == .wrPoll

/-- A phase that sleeps between polls. -/
def Phase.isSleep (p : Phase) : Bool :=
  p == .rdSleep || p == .wrEnSleep || p == .wrSleep

/-! Transactions. -/

/-- The number of register transactions in a trace. -/
def transactions (h : List Event) : Nat :=
  (h.filter Event.isTransaction).length

/-- The trace of polls that all saw busy: a read of 0x260 and a sleep each
(42_busy_poll.md R164). -/
def busyPolls (vs : List Word) : List Event :=
  vs.flatMap (fun v => [.rd Config.offCmd v, .sleep Config.pollIntervalUs])

/-- The trace of a Read up to its poll, given the words read from 0x26C and 0x260
(43_operations.md R183 steps 2 and 3). -/
def readPrefix (addr ah cmd : Word) : List Event :=
  [.rd Config.offAh ah, .wr Config.offAh (ahWord ah (ahRdByte addr)),
   .rd Config.offCmd cmd, .wr Config.offCmd (cmdReadWord cmd addr)]

/-- The trace of a Write up to its write-enable poll (43_operations.md R190). -/
def writePrefix (addr ah cmd : Word) : List Event :=
  [.rd Config.offAh ah, .wr Config.offAh (ahWord ah (ahWrByte addr)),
   .rd Config.offCmd cmd, .wr Config.offCmd (cmdWrenWord cmd)]

/-- The trace of a Write between its two polls (43_operations.md R190). -/
def writeMiddle (addr data cmd : Word) : List Event :=
  [.wr Config.offData data, .rd Config.offCmd cmd, .wr Config.offCmd (cmdWriteWord cmd addr)]

/-! Invariants. -/

/-- The engine's invariant: the counter's range (10_state.md R25, 30_encoding.md R113), `FAULT`
exactly with a faulty outcome (10_state.md R28), and an operation in progress is the accepted one
with a legal address (43_operations.md R181, R182). -/
structure EngineInv (s : State) : Prop where
  attempt_le : s.attempt ≤ Config.pollAttempts
  poll_lt : s.phase.isPoll = true → s.attempt < Config.pollAttempts
  sleep_pos : s.phase.isSleep = true → 1 ≤ s.attempt
  fault_iff : s.phase = .fault ↔ ∃ e, s.outcome = some (.fault e)
  read_op : s.phase.ofRead = true → s.reqOp = .read ∧ legal s.reqAddr = true
  write_op : s.phase.ofWrite = true → s.reqOp = .write ∧ legal s.reqAddr = true

/-- The client sequence waits for the word of a Read. -/
def Client.awaitsWord (c : Client) : Bool :=
  match c with
  | .dumpHead => true
  | .dumpWord _ _ => true
  | .restoreCheck _ _ _ => true
  | .liveHead => true
  | .liveWord _ _ _ _ => true
  | .none => false
  | .restoreWritten _ _ _ => false
  | .stopped => false

/-- The client sequence waits for the end of a Write. -/
def Client.awaitsWrite (c : Client) : Bool :=
  match c with
  | .restoreWritten _ _ _ => true
  | .none => false
  | .dumpHead => false
  | .dumpWord _ _ => false
  | .restoreCheck _ _ _ => false
  | .liveHead => false
  | .liveWord _ _ _ _ => false
  | .stopped => false

/-- A waiting client's operation is the one in progress, or has ended with the outcome it waits
for, or has faulted (44_client_sequences.md R210). -/
structure ClientInv (s : State) : Prop where
  word : s.client.awaitsWord = true →
    s.phase.ofRead = true ∨ s.phase = .fault ∨
      (s.phase = .idle ∧ ∃ v, s.outcome = some (.okValue v))
  write : s.client.awaitsWrite = true →
    s.phase.ofWrite = true ∨ s.phase = .fault ∨ (s.phase = .idle ∧ s.outcome = some .ok)

/-- The EEPROM content of the reference controller is in canonical form. -/
def MemWf (s : State) : Prop :=
  match s.env with
  | .oracle _ => True
  | .refCtl c => c.mem.wf

end Machine

end Sys2Proof
end

