-- ==== Sys2Proof/Certificates/Slice0/Obligations.lean ====
section
/-! DEFINITION. The statements for the provers. Each docstring names the rule it formalises; a
decision of the spec (92_eei_decisions.md D<n>) or a choice of the model (log entry <n>) that it
rests on is named there too. -/

open Sys2Proof Sys2Proof.Machine

/-! ## Encodings -/

/-- Decoding an encoded instruction gives it back, with every operand at every value
(30_encoding.md R91, R92, R93, R96; the layout of a request is decision D3). -/
def Obligations.DecodeOfEncode : Prop :=
  ∀ i : Instr, decode (encode i) = .ok i

/-- Each packet has one meaning: the decoded instruction encodes to the packet it was read from
(30_encoding.md R92, R93, R96, R101). -/
def Obligations.EncodeOfDecode : Prop :=
  ∀ (p : Packet) (i : Instr), decode p = .ok i → encode i = p

/-- The masks and matches of the opcode map for the words of offset 0x260 (30_encoding.md R101). -/
def Obligations.CommandRowsByMask : Prop :=
  ∀ w : Word,
    ((∃ k b l, decodeCmd w = .ok (.cmdRead k b l)) ↔ w &&& 0x000FE000#32 = 0x00006000#32) ∧
    ((∃ k, decodeCmd w = .ok (.cmdWren k)) ↔ w &&& 0x001FFFFF#32 = 0x0000C000#32) ∧
    ((∃ k b l, decodeCmd w = .ok (.cmdWrite k b l)) ↔ w &&& 0x000FE000#32 = 0x00004000#32) ∧
    (decodeCmd w = .ok .unlock1 ↔ w = 0x0000A000#32) ∧
    (decodeCmd w = .ok .unlock2 ↔ w = 0x00002000#32)

/-- Command codes 0, 4 and 7, and words whose bits 19:16 are not 0, are reserved
(30_encoding.md R105). -/
def Obligations.ReservedCommandWordsRejected : Prop :=
  ∀ w : Word,
    (w.extractLsb' 13 3 = 0#3 ∨ w.extractLsb' 13 3 = 4#3 ∨ w.extractLsb' 13 3 = 7#3 ∨
      w.extractLsb' 16 4 ≠ 0#4) →
    ∃ e, decodeCmd w = .error e

/-- A few words written out from the spec's encodings decode to what they stand for
(95_test_vectors.md 3.2, 41_command_encoder.md R145). -/
def Obligations.SampleWordsDecode : Prop :=
  decodeCmd 0x0010737B#32 = .ok (.cmdRead 0#11 1#1 0x137B#13) ∧
  decodeCmd 0xABE048D1#32 = .ok (.cmdWrite 0x55F#11 0#1 0x08D1#13) ∧
  decodeCmd 0xABE0C000#32 = .ok (.cmdWren 0x55F#11) ∧
  decodeCmd 0x0000A000#32 = .ok .unlock1 ∧
  decode (.ah .write 0x12345604#32) = .ok (.ahWr 0x123456#24 0x04#8)

/-! ## Splitter and command encoder -/

/-- The word address, the low field and the high-order bit (40_address_splitter.md R121, R122,
R123). -/
def Obligations.SplitterFields : Prop :=
  (∀ addr : Word, wa addr = addr >>> 2 ∧
    lo13 addr = wa addr &&& 0x1FFF#32 ∧ lo13 addr = (addr.extractLsb' 2 13).setWidth 32 ∧
    lo13 (addr + 0x8000#32) = lo13 addr ∧
    b13At20 addr = (wa addr &&& 0x2000#32) <<< 7 ∧
    b13At20 addr = (if addr.getLsbD 15 then 0x00100000#32 else 0#32)) ∧
  (∀ addr : Word, legal addr = true → wa addr ≤ 0x3FFFFF#32 ∧ wa addr <<< 2 = addr) ∧
  wa 0#32 = 0#32 ∧ wa 0x00FFFFFC#32 = 0x3FFFFF#32 ∧ wa 0x012344#32 = 0x0048D1#32 ∧
  lo13 0x7FFC#32 = 0x1FFF#32 ∧ lo13 0x8000#32 = 0#32 ∧ lo13 0x012344#32 = 0x08D1#32 ∧
  b13At20 0x7FFC#32 = 0#32 ∧ b13At20 0x8000#32 = 0x00100000#32 ∧
  b13At20 0xFFFC#32 = 0x00100000#32 ∧ b13At20 0x10000#32 = 0#32 ∧
  b13At20 0x012344#32 = 0#32 ∧ b13At20 0xABCDEC#32 = 0x00100000#32

/-- The address-high byte of a Read is `addr[31:24]`, 0 for a legal address, and that of a Write
is `addr[21:14]` by decision D5, log entry 6 (40_address_splitter.md R124, R125). -/
def Obligations.AddressHighBytes : Prop :=
  ∀ addr : Word,
    ahRdByte addr = addr.extractLsb' 24 8 ∧ ahWrByte addr = addr.extractLsb' 14 8 ∧
    (legal addr = true → ahRdByte addr = 0#8) ∧
    (addr < 0x4000#32 → ahWrByte addr = 0#8)

/-- The merge into the address-high register (40_address_splitter.md R126). -/
def Obligations.AddressHighMerge : Prop :=
  (∀ (old : Word) (byte : Byte),
    ahWord old byte = (old &&& 0xFFFFFF00#32) ||| byte.setWidth 32 ∧
    (ahWord old byte).extractLsb' 8 24 = old.extractLsb' 8 24 ∧
    (ahWord old byte).extractLsb' 0 8 = byte ∧
    ahWord old (old.extractLsb' 0 8) = old) ∧
  ahWord 0x12345678#32 0x04#8 = 0x12345604#32 ∧ ahWord 0xFFFFFFFF#32 0x00#8 = 0xFFFFFF00#32

/-- The general command word and the read command word (41_command_encoder.md R140, R141), and the
write command word's two forms with the examples of R143. -/
def Obligations.CommandWordForms : Prop :=
  (∀ (old lo b13at20 : Word) (code : BitVec 3),
    cmdWord old code lo b13at20 =
      (old &&& 0xFFE00000#32) ||| b13at20 ||| (code.setWidth 32 <<< 13) ||| lo ∧
    cmdWord old code lo b13at20 = cmdWord (old &&& 0xFFE00000#32) code lo b13at20) ∧
  (∀ old addr : Word,
    cmdReadWord old addr = cmdWord old 3#3 (lo13 addr) (b13At20 addr) ∧
    cmdReadWord old addr = (old &&& 0xFFE00000#32) ||| ((addr >>> 2 &&& 0x2000#32) <<< 7) |||
      0x00006000#32 ||| (addr >>> 2 &&& 0x1FFF#32) ∧
    cmdWriteWord old addr = cmdWord old 2#3 (lo13 addr) (b13At20 addr) ∧
    cmdWriteWord old addr = (old &&& 0xFFE00000#32) ||| ((addr >>> 2 &&& 0x2000#32) <<< 7) |||
      0x00004000#32 ||| (addr >>> 2 &&& 0x1FFF#32)) ∧
  cmdWord 0xFFFFFFFF#32 3#3 0x0001#32 0x00100000#32 = 0xFFF06001#32 ∧
  cmdReadWord 0#32 0#32 = 0x00006000#32 ∧ cmdReadWord 0#32 0x7FFC#32 = 0x00007FFF#32 ∧
  cmdReadWord 0#32 0x8000#32 = 0x00106000#32 ∧ cmdReadWord 0#32 0xFFFC#32 = 0x00107FFF#32 ∧
  cmdReadWord 0#32 0x10000#32 = 0x00006000#32 ∧
  cmdReadWord 0xABE5A5A5#32 0x012344#32 = 0xABE068D1#32 ∧
  cmdWriteWord 0#32 0#32 = 0x00004000#32 ∧ cmdWriteWord 0#32 0x7FFC#32 = 0x00005FFF#32 ∧
  cmdWriteWord 0#32 0x8000#32 = 0x00104000#32 ∧
  cmdWriteWord 0xABE5A5A5#32 0x012344#32 = 0xABE048D1#32

/-- Every command word the engine issues writes bits 19:16 as 0, keeps bits 31:21 of the value
read, has code 3, 6 or 2, and in its bits 20:0 is no unlock word
(41_command_encoder.md R144; the write-enable word by decision D6, log entry 7). -/
def Obligations.IssuedCommandWords : Prop :=
  ∀ old addr : Word,
    ∀ w ∈ [cmdReadWord old addr, cmdWrenWord old, cmdWriteWord old addr],
      w.extractLsb' 16 4 = 0#4 ∧ busy w = false ∧
      w.extractLsb' 21 11 = old.extractLsb' 21 11 ∧
      (w.extractLsb' 13 3 = 3#3 ∨ w.extractLsb' 13 3 = 6#3 ∨ w.extractLsb' 13 3 = 2#3) ∧
      w.extractLsb' 0 21 ≠ 0x00A000#21 ∧ w.extractLsb' 0 21 ≠ 0x002000#21

/-- What an issued command word decodes to: the preserved bits and the 14 address bits it carries
(41_command_encoder.md R145; the write-enable word by decision D6, log entry 7). -/
def Obligations.IssuedWordsDecode : Prop :=
  ∀ old addr : Word,
    decodeCmd (cmdReadWord old addr) =
      .ok (.cmdRead (old.extractLsb' 21 11) (addr.extractLsb' 15 1) (addr.extractLsb' 2 13)) ∧
    decodeCmd (cmdWrenWord old) = .ok (.cmdWren (old.extractLsb' 21 11)) ∧
    decodeCmd (cmdWriteWord old addr) =
      .ok (.cmdWrite (old.extractLsb' 21 11) (addr.extractLsb' 15 1) (addr.extractLsb' 2 13))

/-! ## Requests -/

/-- `READ` and `WRITE` complete in `IDLE`: the request is latched; a legal address starts the
operation, any other raises AddressingError (43_operations.md R181; the error's payload is
decision D20, the terminal phase D12). -/
def Obligations.RequestsComplete : Prop :=
  ∀ (s : State) (addr data : Word), s.phase = .idle →
    (legal addr = true →
      exec (.read addr data) s = .next { s with
        reqOp := .read, reqAddr := addr, reqData := data, phase := .rdAhR } ∧
      exec (.write addr data) s = .next { s with
        reqOp := .write, reqAddr := addr, reqData := data, phase := .wrAhR }) ∧
    (legal addr = false →
      exec (.read addr data) s = .next { s with
        reqOp := .read, reqAddr := addr, reqData := data,
        outcome := some (.fault (.addressing addr)), phase := .fault } ∧
      exec (.write addr data) s = .next { s with
        reqOp := .write, reqAddr := addr, reqData := data,
        outcome := some (.fault (.addressing addr)), phase := .fault })

/-- The precondition (43_operations.md R182): an illegal address fails with an addressing error
before any register transaction, for Read and for Write, whatever the data. -/
def Obligations.Precondition : Prop :=
  (∀ addr : Word, legal addr = true ↔ addr.toNat ≤ 0x00FFFFFF ∧ addr.toNat % 4 = 0) ∧
  (∀ (s : State) (addr data : Word), s.phase = .idle → legal addr = false →
    ∀ i ∈ [Instr.read addr data, Instr.write addr data],
      ∃ t, exec i s = .next t ∧ t.phase = .fault ∧
        (∃ a, t.outcome = some (.fault (.addressing a))) ∧
        t.history = s.history ∧ t.env = s.env) ∧
  legal 0#32 = true ∧ legal 0x00FFFFFC#32 = true ∧
  (∀ addr : Word, legal addr = true → addr ≤ 0x00FFFFFC#32) ∧
  legal 0x00FFFFFF#32 = false ∧ legal 0x01000000#32 = false ∧
  legal 1#32 = false ∧ legal 2#32 = false ∧ legal 3#32 = false ∧ legal 0xFFFFFFFC#32 = false

/-- What acceptance leaves unchanged: every latch but the request's, the environment and its
memory, and the client's fields; `OUTCOME` too unless the address is illegal
(43_operations.md R181: "Acceptance performs no register transaction"). -/
def Obligations.RequestFrame : Prop :=
  ∀ (s t : State) (addr data : Word),
    ∀ i ∈ [Instr.read addr data, Instr.write addr data], exec i s = .next t →
      t.tmp = s.tmp ∧ t.result = s.result ∧ t.attempt = s.attempt ∧
      (legal addr = true → t.outcome = s.outcome) ∧
      t.history = s.history ∧ t.env = s.env ∧ t.portUsable = s.portUsable ∧
      t.sinkUsable = s.sinkUsable ∧ t.sourceUsable = s.sourceUsable ∧
      t.inputs = s.inputs ∧ t.client = s.client ∧ t.sink = s.sink ∧ t.source = s.source ∧
      t.report = s.report ∧ ∀ a, t.eepromByte a = s.eepromByte a

/-- A request has no step while an operation runs (70_reset_and_hazards.md R296, decision D19,
log entry 5). -/
def Obligations.RequestRefusedWhileBusy : Prop :=
  ∀ (s : State) (addr data : Word), s.phase ≠ .idle → s.phase ≠ .fault →
    exec (.read addr data) s = .refused .requestWhileBusy ∧
    exec (.write addr data) s = .refused .requestWhileBusy

/-! ## Register words -/

/-- The three command words complete in the phase that issues them: one write of 0x260, the poll
counter restarts, the poll is next (42_busy_poll.md R161, 43_operations.md R186, R192, R195;
fresh reads and the write-enable fields are decisions D6, D7, log entry 7). -/
def Obligations.CommandWordsComplete : Prop :=
  ∀ (s : State) (keep : BitVec 11) (b13 : BitVec 1) (lo : BitVec 13),
    (s.phase = .rdCmdW → exec (.cmdRead keep b13 lo) s = .next { s with
      history := s.history ++ [.wr 0x260#32 (keep ++ b13 ++ 0#4 ++ 3#3 ++ lo)],
      env := s.env.afterWrite 0x260#32 (keep ++ b13 ++ 0#4 ++ 3#3 ++ lo),
      attempt := 0, phase := .rdPoll }) ∧
    (s.phase = .wrEnW → exec (.cmdWren keep) s = .next { s with
      history := s.history ++ [.wr 0x260#32 (keep ++ 0x00C000#21)],
      env := s.env.afterWrite 0x260#32 (keep ++ 0x00C000#21),
      attempt := 0, phase := .wrEnPoll }) ∧
    (s.phase = .wrCmdW → exec (.cmdWrite keep b13 lo) s = .next { s with
      history := s.history ++ [.wr 0x260#32 (keep ++ b13 ++ 0#4 ++ 2#3 ++ lo)],
      env := s.env.afterWrite 0x260#32 (keep ++ b13 ++ 0#4 ++ 2#3 ++ lo),
      attempt := 0, phase := .wrPoll })

/-- The two address-high words complete in the phase that issues them: one write of 0x26C
(43_operations.md R184, R191; the Write's byte is decision D5, log entry 6). -/
def Obligations.AddressHighWordsComplete : Prop :=
  ∀ (s : State) (keep : BitVec 24) (byte : Byte),
    (s.phase = .rdAhW → exec (.ahRd keep byte) s = .next { s with
      history := s.history ++ [.wr 0x26C#32 (keep ++ byte)],
      env := s.env.afterWrite 0x26C#32 (keep ++ byte), phase := .rdCmdR }) ∧
    (s.phase = .wrAhW → exec (.ahWr keep byte) s = .next { s with
      history := s.history ++ [.wr 0x26C#32 (keep ++ byte)],
      env := s.env.afterWrite 0x26C#32 (keep ++ byte), phase := .wrEnR })

/-- The unlock words complete in `IDLE`: one raw write of 0x260 each, nothing else
(44_client_sequences.md R221, decision D17, log entry 16; 70_reset_and_hazards.md R298). -/
def Obligations.UnlockWordsComplete : Prop :=
  ∀ s : State, s.phase = .idle →
    exec .unlock1 s = .next { s with
      history := s.history ++ [.wr 0x260#32 0x0000A000#32],
      env := s.env.afterWrite 0x260#32 0x0000A000#32 } ∧
    exec .unlock2 s = .next { s with
      history := s.history ++ [.wr 0x260#32 0x00002000#32],
      env := s.env.afterWrite 0x260#32 0x00002000#32 }

/-- Outside the phase that issues it, a register word is the client's raw write in `IDLE`
(60_exceptions.md R270), and is refused in any other phase of an operation (70_reset_and_hazards.md
R298; log entry 11). -/
def Obligations.RegisterWordsOutOfPhase : Prop :=
  ∀ (s : State) (k : BitVec 11) (b : BitVec 1) (l : BitVec 13) (h : BitVec 24) (y : Byte),
    (s.phase = .idle →
      exec (.cmdRead k b l) s = .next (s.writeReg 0x260#32 (encodeCmd k b 3#3 l)) ∧
      exec (.cmdWren k) s = .next (s.writeReg 0x260#32 (encodeCmd k 0#1 6#3 0#13)) ∧
      exec (.cmdWrite k b l) s = .next (s.writeReg 0x260#32 (encodeCmd k b 2#3 l)) ∧
      exec (.ahRd h y) s = .next (s.writeReg 0x26C#32 (encodeAh h y)) ∧
      exec (.ahWr h y) s = .next (s.writeReg 0x26C#32 (encodeAh h y))) ∧
    (s.phase ≠ .idle → s.phase ≠ .fault →
      (s.phase ≠ .rdCmdW → exec (.cmdRead k b l) s = .refused .issueOutOfPhase) ∧
      (s.phase ≠ .wrEnW → exec (.cmdWren k) s = .refused .issueOutOfPhase) ∧
      (s.phase ≠ .wrCmdW → exec (.cmdWrite k b l) s = .refused .issueOutOfPhase) ∧
      (s.phase ≠ .rdAhW → exec (.ahRd h y) s = .refused .issueOutOfPhase) ∧
      (s.phase ≠ .wrAhW → exec (.ahWr h y) s = .refused .issueOutOfPhase) ∧
      exec .unlock1 s = .refused .rawWriteDuringOperation ∧
      exec .unlock2 s = .refused .rawWriteDuringOperation)

/-- What a command word leaves unchanged, in every phase in which it runs: every latch but
`ATTEMPT` and `PHASE`, the client's fields, all of the history before its one write, and every
byte of the reference controller's EEPROM but the four that a write command stores to
(43_operations.md R189, R197; 95_test_vectors.md section 2, log entry 14). -/
def Obligations.CommandWordFrame : Prop :=
  ∀ (s t : State) (k : BitVec 11) (b : BitVec 1) (l : BitVec 13),
    (∀ i ∈ [Instr.cmdRead k b l, Instr.cmdWren k, Instr.cmdWrite k b l], exec i s = .next t →
      t.reqOp = s.reqOp ∧ t.reqAddr = s.reqAddr ∧ t.reqData = s.reqData ∧ t.tmp = s.tmp ∧
      t.result = s.result ∧ t.outcome = s.outcome ∧ t.portUsable = s.portUsable ∧
      t.sinkUsable = s.sinkUsable ∧ t.sourceUsable = s.sourceUsable ∧ t.inputs = s.inputs ∧
      t.client = s.client ∧ t.sink = s.sink ∧ t.source = s.source ∧ t.report = s.report ∧ ∃ w, encode i = .cmd w ∧ t.history = s.history ++ [.wr 0x260#32 w]) ∧
    (∀ i ∈ [Instr.cmdRead k b l, Instr.cmdWren k], exec i s = .next t →
      ∀ a, t.eepromByte a = s.eepromByte a) ∧
    (exec (.cmdWrite k b l) s = .next t →
      ∀ c, s.env = .refCtl c →
        ∀ a, (a < 4 * c.index (encodeCmd k b 2#3 l) ∨ 4 * c.index (encodeCmd k b 2#3 l) + 3 < a) →
          t.eepromByte a = s.eepromByte a)

/-- What an address-high word and an unlock word leave unchanged: every latch but `PHASE`, the
client's fields, all of the history before the one write, and every byte of the reference
controller's EEPROM. The one write is of 0x26C with the address-high word, or of 0x260 with the
unlock word (43_operations.md R184, R191, 44_client_sequences.md R221, log entry 14). -/
def Obligations.PlainWordFrame : Prop :=
  ∀ (s t : State) (h : BitVec 24) (y : Byte),
    ∀ x ∈ [(Instr.ahRd h y, Config.offAh, encodeAh h y),
           (Instr.ahWr h y, Config.offAh, encodeAh h y),
           (Instr.unlock1, Config.offCmd, Config.unlockWord1),
           (Instr.unlock2, Config.offCmd, Config.unlockWord2)],
      exec x.1 s = .next t →
        t.reqOp = s.reqOp ∧ t.reqAddr = s.reqAddr ∧ t.reqData = s.reqData ∧ t.tmp = s.tmp ∧
        t.result = s.result ∧ t.attempt = s.attempt ∧ t.outcome = s.outcome ∧
        t.portUsable = s.portUsable ∧ t.sinkUsable = s.sinkUsable ∧
        t.sourceUsable = s.sourceUsable ∧ t.inputs = s.inputs ∧ t.client = s.client ∧
        t.sink = s.sink ∧ t.source = s.source ∧ t.report = s.report ∧
        t.history = s.history ++ [.wr x.2.1 x.2.2] ∧ t.env = s.env.afterWrite x.2.1 x.2.2 ∧
        ∀ a, t.eepromByte a = s.eepromByte a

/-! ## Steps -/

/-- A step runs the decoded instruction: when an encoded instruction is fetched and decodes to
`i`, the step is exec of `i`; in an operation the packet is the word the engine issues and the
state is the present one, in `IDLE` the packet is the client's and the state is the one after its
move; for a request at the head of the stream that move takes it off the stream
(43_operations.md R181, 92_eei_decisions.md D2). -/
def Obligations.StepRunsDecoded : Prop :=
  (∀ (s t : State) (p : Packet) (i : Instr), fetch s = some (p, t) → decode p = .ok i →
    step s = exec i t) ∧
  (∀ (s : State) (p : Packet), s.phase ≠ .idle →
    (fetch s = some (p, s) ↔ issuedPacket s = some p)) ∧
  (∀ (s : State) (addr data : Word) (rest : List Input),
    (Presents s .read addr data rest →
      step s = exec (.read addr data) { s with inputs := rest }) ∧
    (Presents s .write addr data rest →
      step s = exec (.write addr data) { s with inputs := rest }))

/-- Every well-formed instruction, placed in any state, is what the next step runs, and it
completes (00_scope.md R3; log entries 10 and 12). -/
def Obligations.PlacedInstructionRuns : Prop :=
  ∀ (s : State) (i : Instr), i.wf = true →
    ∃ t u, fetch (s.place i) = some (encode i, t) ∧ t.inputs = s.inputs ∧
      step (s.place i) = exec i t ∧ exec i t = .next u

/-- The address-high update of a Read: two transactions (43_operations.md R184). -/
def Obligations.ReadAddressHighUpdate : Prop :=
  ∀ s : State,
    (s.phase = .rdAhR → step s = .next { s with
      history := s.history ++ [.rd 0x26C#32 (s.answer 0x26C#32)],
      env := s.env.afterRead 0x26C#32, tmp := s.answer 0x26C#32, phase := .rdAhW }) ∧
    (s.phase = .rdAhW → step s = .next { s with
      history := s.history ++ [.wr 0x26C#32 (ahWord s.tmp (ahRdByte s.reqAddr))],
      env := s.env.afterWrite 0x26C#32 (ahWord s.tmp (ahRdByte s.reqAddr)),
      phase := .rdCmdR }) ∧
    (legal s.reqAddr = true → ahWord s.tmp (ahRdByte s.reqAddr) = s.tmp &&& 0xFFFFFF00#32)

/-- The command issue of a Read: a read of 0x260 that is no poll, reached only by the write of
0x26C, then the write of the read command word with the counter restarted (43_operations.md R185,
R186). -/
def Obligations.ReadCommandIssue : Prop :=
  (∀ s t : State, step s = .next t → t.phase = .rdCmdR →
    s.phase = .rdAhW ∧ ∃ w, t.history = s.history ++ [.wr 0x26C#32 w]) ∧
  ∀ s : State,
    (s.phase = .rdCmdR → step s = .next { s with
      history := s.history ++ [.rd 0x260#32 (s.answer 0x260#32)],
      env := s.env.afterRead 0x260#32, tmp := s.answer 0x260#32, phase := .rdCmdW }) ∧
    (s.phase = .rdCmdW → step s = .next { s with
      history := s.history ++ [.wr 0x260#32 (cmdReadWord s.tmp s.reqAddr)],
      env := s.env.afterWrite 0x260#32 (cmdReadWord s.tmp s.reqAddr),
      attempt := 0, phase := .rdPoll })

/-- The address-high update of a Write (43_operations.md R191, decision D5, log entry 6). -/
def Obligations.WriteAddressHighUpdate : Prop :=
  ∀ s : State,
    (s.phase = .wrAhR → step s = .next { s with
      history := s.history ++ [.rd 0x26C#32 (s.answer 0x26C#32)],
      env := s.env.afterRead 0x26C#32, tmp := s.answer 0x26C#32, phase := .wrAhW }) ∧
    (s.phase = .wrAhW → step s = .next { s with
      history := s.history ++ [.wr 0x26C#32 (ahWord s.tmp (ahWrByte s.reqAddr))],
      env := s.env.afterWrite 0x26C#32 (ahWord s.tmp (ahWrByte s.reqAddr)),
      phase := .wrEnR })

/-- The two command issues of a Write, each from a fresh read of 0x260 (43_operations.md R192,
R195, decisions D6 and D7, log entry 7). -/
def Obligations.WriteCommandIssues : Prop :=
  ∀ s : State,
    (s.phase = .wrEnR → step s = .next { s with
      history := s.history ++ [.rd 0x260#32 (s.answer 0x260#32)],
      env := s.env.afterRead 0x260#32, tmp := s.answer 0x260#32, phase := .wrEnW }) ∧
    (s.phase = .wrEnW → step s = .next { s with
      history := s.history ++ [.wr 0x260#32 ((s.tmp &&& 0xFFE00000#32) ||| 0x0000C000#32)],
      env := s.env.afterWrite 0x260#32 ((s.tmp &&& 0xFFE00000#32) ||| 0x0000C000#32),
      attempt := 0, phase := .wrEnPoll }) ∧
    (s.phase = .wrCmdR → step s = .next { s with
      history := s.history ++ [.rd 0x260#32 (s.answer 0x260#32)],
      env := s.env.afterRead 0x260#32, tmp := s.answer 0x260#32, phase := .wrCmdW }) ∧
    (s.phase = .wrCmdW → step s = .next { s with
      history := s.history ++ [.wr 0x260#32 (cmdWriteWord s.tmp s.reqAddr)],
      env := s.env.afterWrite 0x260#32 (cmdWriteWord s.tmp s.reqAddr),
      attempt := 0, phase := .wrPoll })

/-- The data write of a Write: one write of 0x264, reached only from a write-enable poll that saw
the busy flag clear, and followed by the write command (43_operations.md R194). -/
def Obligations.WriteDataPhase : Prop :=
  (∀ s : State, s.phase = .wrDataW → step s = .next { s with
    history := s.history ++ [.wr 0x264#32 s.reqData],
    env := s.env.afterWrite 0x264#32 s.reqData, phase := .wrCmdR }) ∧
  (∀ s t : State, step s = .next t → t.phase = .wrDataW →
    s.phase = .wrEnPoll ∧ (s.answer 0x260#32).getLsbD 18 = false)

/-- The end of a Read: one read of 0x264, reached only from a poll that saw the busy flag clear;
RESULT and OUTCOME take the word (43_operations.md R188). -/
def Obligations.ReadDataPhase : Prop :=
  (∀ s : State, s.phase = .rdDataR → step s = .next { s with
    history := s.history ++ [.rd 0x264#32 (s.answer 0x264#32)],
    env := s.env.afterRead 0x264#32, result := s.answer 0x264#32,
    outcome := some (.okValue (s.answer 0x264#32)), phase := .idle }) ∧
  (∀ s t : State, step s = .next t → t.phase = .rdDataR →
    s.phase = .rdPoll ∧ (s.answer 0x260#32).getLsbD 18 = false)

/-- One poll attempt, in each of the three polls: bit 18 of the one word read decides, the other
31 bits are ignored, the counter counts; a clear flag ends the poll at once, also at the 100th
attempt (42_busy_poll.md R162, R163). -/
def Obligations.PollAttempts : Prop :=
  ((∀ v : Word, busy v = v.getLsbD 18) ∧ busy 0x00040000#32 = true ∧
    busy 0xFFFBFFFF#32 = false ∧ busy 0#32 = false ∧ busy 0xABE468D1#32 = true ∧
    busy 0xABE068D1#32 = false) ∧
  ∀ s : State,
    (s.phase = .rdPoll → step s = .next { s with
      history := s.history ++ [.rd 0x260#32 (s.answer 0x260#32)],
      env := s.env.afterRead 0x260#32, attempt := s.attempt + 1,
      phase := if (s.answer 0x260#32).getLsbD 18 then .rdSleep else .rdDataR }) ∧
    (s.phase = .wrEnPoll → step s = .next { s with
      history := s.history ++ [.rd 0x260#32 (s.answer 0x260#32)],
      env := s.env.afterRead 0x260#32, attempt := s.attempt + 1,
      phase := if (s.answer 0x260#32).getLsbD 18 then .wrEnSleep else .wrDataW }) ∧
    (s.phase = .wrPoll → step s = .next { s with
      history := s.history ++ [.rd 0x260#32 (s.answer 0x260#32)],
      env := s.env.afterRead 0x260#32, attempt := s.attempt + 1,
      outcome := if (s.answer 0x260#32).getLsbD 18 then s.outcome else some .ok,
      phase := if (s.answer 0x260#32).getLsbD 18 then .wrSleep else .idle })

/-- The sleep after a busy attempt: 100 microseconds, no register transaction, then the next
attempt, or after the 100th the timeout of that poll's kind (42_busy_poll.md R164, R165; the sleep
after the 100th attempt is decision D8, log entry 8, the terminal phase D12). -/
def Obligations.PollSleeps : Prop :=
  ∀ s : State,
    ∀ x ∈ [(Phase.rdSleep, Phase.rdPoll, PollKind.read),
           (Phase.wrEnSleep, Phase.wrEnPoll, PollKind.writeEnable),
           (Phase.wrSleep, Phase.wrPoll, PollKind.writeCommit)],
      s.phase = x.1 →
        (s.attempt < 100 → step s = .next { s with
          history := s.history ++ [.sleep 100], phase := x.2.1 }) ∧
        (s.attempt = 100 → step s = .next { s with
          history := s.history ++ [.sleep 100],
          outcome := some (.fault (.timeout x.2.2)), phase := .fault })

/-! ## Whole operations -/

/-- A successful Read: from acceptance to `Ok`, with `bs` the words of the busy polls, `v` the
word of the poll that saw clear and `d` the word read, the trace is exactly the document's
sequence, and the answers are consumed in that order (43_operations.md R183, R189; the answers
already drawn are log entry 2). -/
def Obligations.ReadSucceeds : Prop :=
  ∀ (s : State) (addr data ah cmd v d : Word) (bs as : List Word) (rest : List Input),
    Presents s .read addr data rest → legal addr = true →
    s.env = .oracle (ah :: cmd :: (bs ++ v :: d :: as)) →
    bs.length < 100 → (∀ b ∈ bs, busy b = true) → busy v = false →
    ∃ t, runSteps (7 + 2 * bs.length) s = .next t ∧
      t.phase = .idle ∧ t.outcome = some (.okValue d) ∧ t.result = d ∧
      t.attempt = bs.length + 1 ∧ t.env = .oracle as ∧ t.inputs = rest ∧ t.client = .none ∧
      t.history = s.history ++ readPrefix addr ah cmd ++ busyPolls bs ++
        [.rd 0x260#32 v, .rd 0x264#32 d]

/-- A Read whose 100 polls all see busy ends in TimeoutError(read): exactly 100 polls, no read of
0x264, no further answer drawn (42_busy_poll.md R165, 43_operations.md R187; the sleep after the
100th poll is decision D8, log entry 8). -/
def Obligations.ReadTimesOut : Prop :=
  ∀ (s : State) (addr data ah cmd : Word) (bs as : List Word) (rest : List Input),
    Presents s .read addr data rest → legal addr = true →
    s.env = .oracle (ah :: cmd :: (bs ++ as)) → bs.length = 100 → (∀ b ∈ bs, busy b = true) →
    ∃ t, runSteps 205 s = .next t ∧ t.phase = .fault ∧
      t.outcome = some (.fault (.timeout .read)) ∧ t.env = .oracle as ∧
      t.history = s.history ++ readPrefix addr ah cmd ++ busyPolls bs ∧
      step t = .fault .faultTerminal

/-- A successful Write: write-enable with its own poll, the data, the write command with its own
poll, and `Ok` (43_operations.md R190, R197; decisions D5, D6, D7, log entries 2, 6 and 7). -/
def Obligations.WriteSucceeds : Prop :=
  ∀ (s : State) (addr data ah c1 v1 c2 v2 : Word) (bs1 bs2 as : List Word) (rest : List Input),
    Presents s .write addr data rest → legal addr = true →
    s.env = .oracle (ah :: c1 :: (bs1 ++ v1 :: c2 :: (bs2 ++ v2 :: as))) →
    bs1.length < 100 → (∀ b ∈ bs1, busy b = true) → busy v1 = false →
    bs2.length < 100 → (∀ b ∈ bs2, busy b = true) → busy v2 = false →
    ∃ t, runSteps (10 + 2 * bs1.length + 2 * bs2.length) s = .next t ∧
      t.phase = .idle ∧ t.outcome = some .ok ∧ t.result = s.result ∧
      t.attempt = bs2.length + 1 ∧ t.env = .oracle as ∧ t.inputs = rest ∧ t.client = .none ∧
      t.history = s.history ++ writePrefix addr ah c1 ++ busyPolls bs1 ++ [.rd 0x260#32 v1] ++
        writeMiddle addr data c2 ++ busyPolls bs2 ++ [.rd 0x260#32 v2]

/-- A Write whose write-enable poll sees busy 100 times ends in TimeoutError(write-enable): the
data register is not written and no write command is issued (43_operations.md R193,
42_busy_poll.md R165; decisions D5, D6, D7, D8). -/
def Obligations.WriteEnableTimesOut : Prop :=
  ∀ (s : State) (addr data ah cmd : Word) (bs as : List Word) (rest : List Input),
    Presents s .write addr data rest → legal addr = true →
    s.env = .oracle (ah :: cmd :: (bs ++ as)) → bs.length = 100 → (∀ b ∈ bs, busy b = true) →
    ∃ t, runSteps 205 s = .next t ∧ t.phase = .fault ∧
      t.outcome = some (.fault (.timeout .writeEnable)) ∧ t.env = .oracle as ∧
      t.history = s.history ++ writePrefix addr ah cmd ++ busyPolls bs ∧
      step t = .fault .faultTerminal

/-- A Write whose write-commit poll sees busy 100 times ends in TimeoutError(write-commit), with
the data and the write command already written (43_operations.md R196, 60_exceptions.md R257;
decisions D5, D6, D7, D8). -/
def Obligations.WriteCommitTimesOut : Prop :=
  ∀ (s : State) (addr data ah c1 v1 c2 : Word) (bs1 bs2 as : List Word) (rest : List Input),
    Presents s .write addr data rest → legal addr = true →
    s.env = .oracle (ah :: c1 :: (bs1 ++ v1 :: c2 :: (bs2 ++ as))) →
    bs1.length < 100 → (∀ b ∈ bs1, busy b = true) → busy v1 = false →
    bs2.length = 100 → (∀ b ∈ bs2, busy b = true) →
    ∃ t, runSteps (209 + 2 * bs1.length) s = .next t ∧ t.phase = .fault ∧
      t.outcome = some (.fault (.timeout .writeCommit)) ∧ t.env = .oracle as ∧
      t.history = s.history ++ writePrefix addr ah c1 ++ busyPolls bs1 ++ [.rd 0x260#32 v1] ++
        writeMiddle addr data c2 ++ busyPolls bs2 ∧
      step t = .fault .faultTerminal

/-- Every operation ends, whatever the environment answers: once presented it is taken off the
stream and answered, a Read after at most 105 register transactions, a Write after at most 207
(42_busy_poll.md R168, 70_reset_and_hazards.md R304). -/
def Obligations.OperationsTerminate : Prop :=
  ∀ (s : State) (op : Op) (addr data : Word) (rest : List Input), Presents s op addr data rest →
    ∃ n t es, 1 ≤ n ∧ runSteps n s = .next t ∧ t.inputs = rest ∧
      (EndedOk t ∨ EndedInFault t) ∧ t.history = s.history ++ es ∧
      (op = .read → n ≤ 205 ∧ transactions es ≤ 105) ∧
      (op = .write → n ≤ 407 ∧ transactions es ≤ 207)

/-- Read addresses alias modulo 64 KiB: two legal addresses that agree in bits 15:2 give the same
trace and outcome, step for step (40_address_splitter.md R127). -/
def Obligations.ReadAddressesAlias : Prop :=
  ∀ (s : State) (a b data : Word) (rest : List Input) (n : Nat),
    s.phase = .idle → s.client = .none → s.portUsable = true →
    legal a = true → legal b = true → a.extractLsb' 2 14 = b.extractLsb' 2 14 →
    observe (runSteps n { s with inputs := .request (encodeReq .read a data) :: rest }) =
      observe (runSteps n { s with inputs := .request (encodeReq .read b data) :: rest })

/-- Write addresses alias modulo 4 MiB: two legal addresses that agree in bits 21:2 give the same
trace and outcome, step for step (40_address_splitter.md R128, decision D5, log entry 6). -/
def Obligations.WriteAddressesAlias : Prop :=
  ∀ (s : State) (a b data : Word) (rest : List Input) (n : Nat),
    s.phase = .idle → s.client = .none → s.portUsable = true →
    legal a = true → legal b = true → a.extractLsb' 2 20 = b.extractLsb' 2 20 →
    observe (runSteps n { s with inputs := .request (encodeReq .write a data) :: rest }) =
      observe (runSteps n { s with inputs := .request (encodeReq .write b data) :: rest })

/-- No rule reads a latch before the same operation has written it: between operations the
contents of the request latches, `TMP`, `RESULT` and `ATTEMPT` do not influence any later trace
or outcome (10_state.md R23, 70_reset_and_hazards.md R291). -/
def Obligations.LatchesDeadInIdle : Prop :=
  ∀ (s : State) (op : Op) (ra rd tmp res : Word) (att n : Nat), s.phase = .idle →
    observe (runSteps n s) = observe (runSteps n { s with
      reqOp := op, reqAddr := ra, reqData := rd, tmp := tmp, result := res, attempt := att })

/-- The round-trip law against a controller that selects the word by the command word's 14 address
bits alone: for every legal address and every data, the Read after the Write returns the data
(43_operations.md R199, 90_conflicts.md C1 (a); the reference controller is log entry 14). -/
def Obligations.RoundTripModeA : Prop :=
  ∀ (s : State) (c : RefCtl) (addr data d0 : Word) (rest : List Input),
    Presents s .write addr data (.request (encodeReq .read addr d0) :: rest) →
    legal addr = true → s.env = .refCtl c → c.mode = .a → c.stuck = false → c.polls < 100 →
    c.mem.wf →
    ∃ n t, runSteps n s = .next t ∧ t.phase = .idle ∧ t.outcome = some (.okValue data) ∧
      t.inputs = rest

/-- The round-trip law against a controller that also uses the address-high byte: for the legal
addresses whose Write leaves that byte 0 (43_operations.md R199, 90_conflicts.md C1 (b);
decision D5, log entries 6 and 14). -/
def Obligations.RoundTripModeB : Prop :=
  ∀ (s : State) (c : RefCtl) (addr data d0 : Word) (rest : List Input),
    Presents s .write addr data (.request (encodeReq .read addr d0) :: rest) →
    legal addr = true → ahWrByte addr = 0#8 →
    s.env = .refCtl c → c.mode = .b → c.stuck = false → c.polls < 100 → c.mem.wf →
    ∃ n t, runSteps n s = .next t ∧ t.phase = .idle ∧ t.outcome = some (.okValue data) ∧
      t.inputs = rest

/-! ## The whole machine -/

/-- One step makes at most one transaction or sleep, and the history before it stands; in an
operation that event is at one of the engine's three offsets or the poll's sleep
(20_memory.md R63, R69, 10_state.md R40, decision D2). -/
def Obligations.OneEventPerStep : Prop :=
  ∀ s t : State, step s = .next t →
    (t.history = s.history ∨ ∃ e, t.history = s.history ++ [e]) ∧
    (s.phase ≠ .idle → ∃ e, t.history = s.history ++ [e] ∧ e.ofEngine = true)

/-- In an operation nothing but the engine moves: the request, the client and its stream, sink,
source and report stand as they are (43_operations.md R180, 70_reset_and_hazards.md R298). -/
def Obligations.OperationUndisturbed : Prop :=
  ∀ s t : State, step s = .next t → s.phase ≠ .idle →
    t.reqOp = s.reqOp ∧ t.reqAddr = s.reqAddr ∧ t.reqData = s.reqData ∧
    t.portUsable = s.portUsable ∧ t.sinkUsable = s.sinkUsable ∧
    t.sourceUsable = s.sourceUsable ∧ t.inputs = s.inputs ∧ t.client = s.client ∧
    t.sink = s.sink ∧ t.source = s.source ∧ t.report = s.report

/-- Every step keeps the engine's invariant (10_state.md R25, R28, 30_encoding.md R113,
43_operations.md R181). -/
def Obligations.EngineInvKept : Prop :=
  ∀ s t : State, EngineInv s → step s = .next t → EngineInv t

/-- Every step keeps the client's invariant (44_client_sequences.md R210). -/
def Obligations.ClientInvKept : Prop :=
  ∀ s t : State, ClientInv s → step s = .next t → ClientInv t

/-- Every step keeps the EEPROM content of the reference controller in canonical form
(10_state.md R41; log entry 14). -/
def Obligations.MemoryFormKept : Prop :=
  ∀ s t : State, MemWf s → step s = .next t → MemWf t

/-- The invariants hold at reset. The spec gives `PHASE = IDLE` and no outcome there
(10_state.md R45); the rest is the model's choice: the bound on `ATTEMPT` holds because log entry 1
chooses 0 (10_state.md section 8 gives it no value), `ClientInv` because log entry 3 chooses no
sequence in progress, and `MemWf` because log entry 2 chooses the oracle as the environment, so
that no EEPROM content is listed (log entry 14). -/
def Obligations.InvariantsAtReset : Prop :=
  EngineInv State.reset ∧ ClientInv State.reset ∧ MemWf State.reset

/-- Reset: `IDLE`, no outcome, no transaction made, and nothing is assumed of the controller
(10_state.md R45, 70_reset_and_hazards.md R290, R292, decisions D13, D14). A new invocation is the
same but for the environment and its history, which go on (log entry 23). -/
def Obligations.ResetState : Prop :=
  State.reset.phase = .idle ∧ State.reset.outcome = none ∧ State.reset.history = [] ∧
  (∀ off, State.reset.answer off = Config.readOracle [] off) ∧
  (∀ s : State, s.newInvocation.phase = .idle ∧ s.newInvocation.outcome = none ∧
    s.newInvocation.history = s.history ∧ s.newInvocation.env = s.env)

/-- `FAULT` is terminal: no step and no instruction goes on (10_state.md R28, 60_exceptions.md
R260, decision D12, log entry 4). -/
def Obligations.FaultIsTerminal : Prop :=
  ∀ s : State, s.phase = .fault →
    step s = .fault .faultTerminal ∧ ∀ i : Instr, exec i s = .fault .faultTerminal

/-- No step fetches a word the decoder rejects (41_command_encoder.md R144, 30_encoding.md R105). -/
def Obligations.FetchedWordsDecode : Prop :=
  ∀ (s : State) (e : DecodeError), step s ≠ .refused (.undecodable e)

/-- Under the client's invariant no sequence waits for an outcome the engine does not hold
(44_client_sequences.md R210). -/
def Obligations.ResponseAlwaysThere : Prop :=
  ∀ s : State, ClientInv s → step s ≠ .fault .noResponse

/-! ## Clients and image -/

/-- The unlock sequence is four trace elements, the two words written whole and a sleep of 1000
microseconds after each, and changes nothing of the engine (44_client_sequences.md R221,
decision D17, log entry 16). -/
def Obligations.UnlockSequenceRuns : Prop :=
  ∀ (s : State) (rest : List Input), s.phase = .idle → s.client = .none → s.portUsable = true →
    s.inputs = unlockSequence ++ rest →
    runSteps 4 s = .next { s with
      inputs := rest,
      history := s.history ++ [.wr 0x260#32 0x0000A000#32, .sleep 1000,
        .wr 0x260#32 0x00002000#32, .sleep 1000],
      env := (s.env.afterWrite 0x260#32 0x0000A000#32).afterWrite 0x260#32 0x00002000#32 }

/-- A client's raw write: refused where the Register Space has no such word (20_memory.md R62,
U7), otherwise one write of the word as given, whatever the word, where the oracle answers
(60_exceptions.md R270; log entry 13). On an unusable port a raw write, and every other input that
makes transactions, ends the client with ResourceError before any of them (60_exceptions.md R255,
70_reset_and_hazards.md R293; the client's stop is log entry 18, the input taken off the stream
log entry 19). -/
def Obligations.RawWrites : Prop :=
  (∀ (s : State) (off w : Word) (rest : List Input), s.phase = .idle → s.client = .none →
    s.portUsable = true → s.inputs = .rawWrite off w :: rest →
    ((off.toNat % 4 ≠ 0 ∨ 0x40000 ≤ off.toNat) → step s = .refused .badOffset) ∧
    (off.toNat % 4 = 0 → off.toNat < 0x40000 → ∀ as, s.env = .oracle as →
      step s = .next { s with inputs := rest, history := s.history ++ [.wr off w] })) ∧
  (∀ (s : State) (x : Input) (rest : List Input), s.phase = .idle → s.client = .none →
    s.portUsable = false → s.inputs = x :: rest →
    ((∃ off w, x = .rawWrite off w) ∨ (∃ bits, x = .request bits) ∨
      x ∈ [Input.dump, Input.restore, Input.restoreLoop, Input.decodeLive]) →
    step s = .next { s with
      inputs := rest, client := .stopped, report := some (.failed .resource) })

/-- Restore's verification: after the Write the client Reads the same address; any mismatch of
the 32 bits is fatal, reported with the address and both values, and nothing is issued after it
(44_client_sequences.md R224; the client's stop is log entry 18, the 0 in the Read's unused data
field the model's choice, log entry 26). -/
def Obligations.RestoreVerifies : Prop :=
  (∀ (s : State) (addr w : Word) (count : Nat), s.phase = .idle →
    s.client = .restoreWritten addr w count → s.outcome = some .ok →
    step s = exec (.read addr 0#32) { s with client := .restoreCheck addr w count }) ∧
  (∀ (s : State) (addr w r : Word) (count : Nat), s.phase = .idle →
    s.client = .restoreCheck addr w count → s.outcome = some (.okValue r) → r ≠ w →
    ∃ t, step s = .next t ∧ t.report = some (.failed (.verification addr w r)) ∧
      t.history = s.history ∧ t.phase = .idle ∧ t.outcome = s.outcome ∧
      step t = .fault .clientStopped)

/-- Restore against the reference controller in mode A: every whole word of a usable source is
written at its address, the count is reported, a partial word is not written, and every other byte
of the EEPROM stands (44_client_sequences.md R220, R222, R223, decision D18; log entries 14 and
16). Whatever takes a source and was handed an unusable one ends at once with ResourceError,
before any transaction (60_exceptions.md R255; log entries 18 and 19). -/
def Obligations.RestoreWritesSource : Prop :=
  (∀ (s : State) (c : RefCtl) (ws : List Word) (tail : List Byte) (rest : List Input),
    s.phase = .idle → s.client = .none → s.portUsable = true → s.sourceUsable = true →
    s.inputs = .restore :: rest → s.source = ws.flatMap wordBytes ++ tail →
    tail.length < 4 → ws.length ≤ 0x4000 →
    s.env = .refCtl c → c.mode = .a → c.stuck = false → c.polls < 100 → c.mem.wf →
    ∃ n t, runSteps n s = .next t ∧ t.phase = .idle ∧ t.client = .none ∧
      t.report = some (.restored ws.length) ∧ t.source = [] ∧ t.inputs = rest ∧
      (∀ (i : Nat) (w : Word), ws[i]? = some w →
        ∀ j < 4, t.eepromByte (4 * i + j) = (wordBytes w)[j]?) ∧
      (∀ a, 4 * ws.length ≤ a → t.eepromByte a = s.eepromByte a)) ∧
  (∀ (s : State) (rest : List Input), s.phase = .idle → s.client = .none →
    s.sourceUsable = false →
    ∀ x ∈ [Input.restore, Input.restoreLoop, Input.decodeFile], s.inputs = x :: rest →
      ∃ t, step s = .next t ∧ t.client = .stopped ∧ t.report = some (.failed .resource) ∧
        t.phase = .idle ∧ t.history = s.history ∧ t.env = s.env ∧ t.source = s.source)

/-- Dump against the reference controller in mode A, into a usable sink: header and table are
emitted byte for byte in address order, only the header if the signature is wrong
(44_client_sequences.md R214, decision D16; log entry 14). The length stays below the 64 KiB edge
of R215. A Dump that was handed an unusable sink ends at once with ResourceError, before any
transaction (60_exceptions.md R255; log entries 18 and 19). -/
def Obligations.DumpCopiesImage : Prop :=
  (∀ (s : State) (c : RefCtl) (n : Nat) (rest : List Input),
    s.phase = .idle → s.client = .none → s.portUsable = true → s.sinkUsable = true →
    s.inputs = .dump :: rest →
    s.env = .refCtl c → c.mode = .a → c.stuck = false → c.polls < 100 →
    n = (if signatureOk (c.mem.readWord 0) then tableLength (c.mem.readWord 0) else 0) →
    n ≤ 0xFFFC →
    ∃ k t, runSteps k s = .next t ∧ t.phase = .idle ∧ t.client = .none ∧
      t.report = some .dumped ∧ t.inputs = rest ∧
      t.sink = s.sink ++ (List.range (4 + roundup4 n)).map c.mem.readByte ∧
      ∀ a, t.eepromByte a = s.eepromByte a) ∧
  (∀ (s : State) (rest : List Input), s.phase = .idle → s.client = .none →
    s.sinkUsable = false → s.inputs = .dump :: rest →
      ∃ t, step s = .next t ∧ t.client = .stopped ∧ t.report = some (.failed .resource) ∧
        t.phase = .idle ∧ t.history = s.history ∧ t.env = s.env ∧ t.sink = s.sink)

/-- The table is `floor(n / 6)` records of 6 little-endian bytes, any remainder ignored
(44_client_sequences.md R236). -/
def Obligations.RecordsOfTable : Prop :=
  ∀ table : List Byte,
    (decodeRecords table).length = table.length / 6 ∧
    ∀ (i : Nat) (r : Record), (decodeRecords table)[i]? = some r →
      table[6 * i]? = some (r.header.extractLsb' 0 8) ∧
      table[6 * i + 1]? = some (r.header.extractLsb' 8 8) ∧
      (∀ j < 4, table[6 * i + 2 + j]? = (wordBytes r.value)[j]?) ∧
      r.regOffset = r.header.toNat % 1024 * 4 ∧ r.portCode.toNat = r.header.toNat / 1024

/-- The port-code labels, tested in order (44_client_sequences.md R237). -/
def Obligations.PortLabels : Prop :=
  (∀ pc : BitVec 6, portLabel pc =
    (if pc &&& 0x38#6 = 0x20#6 then .aLut (pc.setWidth 2)
     else if pc = 0x2C#6 then .dmaRam
     else if pc &&& 0x38#6 = 0x28#6 then .dma (pc.setWidth 3)
     else if pc &&& 0x38#6 = 0x30#6 then .station (pc.setWidth 3)
     else if pc &&& 0x38#6 = 0x38#6 then .nt ((pc >>> 1).setWidth 1) (pc.getLsbD 0)
     else .raw pc)) ∧
  portLabel 0x39#6 = .nt 0#1 true ∧ portLabel 0x2C#6 = .dmaRam

/-- The image header, the least multiple of 4, DecodeFile's tests, and DecodeFile as a step: with a
usable source it reports the records or its FormatError whether or not there is a register port,
and touches nothing else (44_client_sequences.md R211, R213, R238, 60_exceptions.md R254; the
shortest buffers and the source left as it is are log entry 22, the usable source log entry 19, the
client's stop log entry 18, its one step log entry 17). -/
def Obligations.ImageHeader : Prop :=
  (∀ w0 : Word, (signatureOk w0 = true ↔ w0 &&& 0xFF#32 = 0x5A#32) ∧
    tableLength w0 = w0.toNat / 65536) ∧
  (∀ n : Nat, roundup4 n % 4 = 0 ∧ n ≤ roundup4 n ∧ ∀ k, n ≤ 4 * k → roundup4 n ≤ 4 * k) ∧
  (∀ (w0 : Word) (table : List Byte),
    (signatureOk w0 = false →
      decodeFile (wordBytes w0 ++ table) = .error .wrongSignature) ∧
    (signatureOk w0 = true → table.length < tableLength w0 →
      decodeFile (wordBytes w0 ++ table) = .error .truncatedImage) ∧
    (signatureOk w0 = true → tableLength w0 ≤ table.length →
      decodeFile (wordBytes w0 ++ table) =
        .ok (decodeRecords (table.take (tableLength w0))))) ∧
  (∀ (s : State) (rest : List Input), s.phase = .idle → s.client = .none →
    s.sourceUsable = true → s.inputs = .decodeFile :: rest →
    (∀ records, decodeFile s.source = .ok records →
      step s = .next { s with inputs := rest, report := some (.decoded records) }) ∧
    (∀ why, decodeFile s.source = .error why →
      step s = .next { s with
        inputs := rest, client := .stopped, report := some (.failed (.format why)) }))
end

