-- ==== Sys2Proof/Laws/Encoding.lean ====
section
/-! SUPPORT. The words the engine forms by masks and shifts (30_encoding.md R92, R93, first form)
are the concatenations the decoder's tables name (second form), and the fields of such a word. -/

namespace Sys2Proof.Machine

/-- The layout of CMD and AH agrees with the masks and shifts of the parameter table
(00_scope.md R9, 30_encoding.md R92, R93). -/
theorem config_layout :
    Config.lowMask = BitVec.ofNat 32 (2 ^ Config.lowWidth - 1) ∧
    Config.cmdClearMask = BitVec.ofNat 32 (2 ^ Config.keepPos - 1) ∧
    Config.hiBitMask = 1#32 <<< Config.hiBitIndex ∧
    Config.ahByteMask = BitVec.ofNat 32 (2 ^ Config.ahByteWidth - 1) ∧
    Config.codePos = Config.lowWidth ∧ Config.zeroPos + Config.zeroWidth = Config.hiBitPos ∧
    Config.hiBitPos + 1 = Config.keepPos ∧ Config.keepPos + Config.keepWidth = 32 ∧
    Config.ahByteWidth + Config.ahKeepWidth = 32 := by
  decide

/-- 30_encoding.md R92 with its literals: `CMD = KEEP ++ ADDR_B13 ++ 0b0000 ++ CODE ++ ADDR_LO`. -/
theorem encodeCmd_eq (keep : BitVec 11) (b13 : BitVec 1) (code : BitVec 3) (lo : BitVec 13) :
    encodeCmd keep b13 code lo = keep ++ b13 ++ 0#4 ++ code ++ lo := by
  refine BitVec.eq_of_getLsbD_eq fun i hi => ?_
  simp only [encodeCmd, Config.keepPos, Config.hiBitPos, Config.hiBitIndex, Config.hiBitShift,
    Config.codePos, BitVec.getLsbD_append]
  interval_cases i <;> simp [Config.keepWidth, Config.codeWidth, Config.lowWidth]

/-- 30_encoding.md R93 with its literals: `AH = KEEP ++ BYTE`. -/
theorem encodeAh_eq (keep : BitVec 24) (byte : Byte) : encodeAh keep byte = keep ++ byte := by
  refine BitVec.eq_of_getLsbD_eq fun i hi => ?_
  simp only [encodeAh, Config.ahByteWidth, BitVec.getLsbD_append]
  interval_cases i <;> simp [Config.ahKeepWidth]

/-- The decoder of the words of offset 0x260 with the literals of 30_encoding.md R92, R96, R101. -/
theorem decodeCmd_eq (w : Word) : decodeCmd w =
    if w = 0x0000A000#32 then .ok .unlock1
    else if w = 0x00002000#32 then .ok .unlock2
    else if w.extractLsb' 16 4 ≠ 0#4 then .error .reservedBits
    else if w.extractLsb' 13 3 = 3#3 then
      .ok (.cmdRead (w.extractLsb' 21 11) (w.extractLsb' 20 1) (w.extractLsb' 0 13))
    else if w.extractLsb' 13 3 = 2#3 then
      .ok (.cmdWrite (w.extractLsb' 21 11) (w.extractLsb' 20 1) (w.extractLsb' 0 13))
    else if w.extractLsb' 13 3 = 6#3 then
      if w.extractLsb' 20 1 = 0#1 ∧ w.extractLsb' 0 13 = 0#13 then
        .ok (.cmdWren (w.extractLsb' 21 11))
      else .error .writeEnableFields
    else .error (.reservedCode (w.extractLsb' 13 3)) := rfl

/-- The decoder of an address-high word with the literals of 30_encoding.md R93. -/
theorem decodeAh_eq (op : Op) (w : Word) : decodeAh op w =
    match op with
    | .read => .ahRd (w.extractLsb' 8 24) (w.extractLsb' 0 8)
    | .write => .ahWr (w.extractLsb' 8 24) (w.extractLsb' 0 8) := rfl

theorem encodeCmd_getLsbD (keep : BitVec 11) (b13 : BitVec 1) (code : BitVec 3) (lo : BitVec 13)
    (i : Nat) : (encodeCmd keep b13 code lo).getLsbD i =
      if i < 13 then lo.getLsbD i else if i < 16 then code.getLsbD (i - 13)
      else if i < 20 then false else if i < 21 then b13.getLsbD (i - 20)
      else keep.getLsbD (i - 21) := by
  simp only [encodeCmd_eq, BitVec.getLsbD_append, BitVec.getLsbD_zero]
  by_cases h1 : i < 13
  · simp [h1]
  · by_cases h2 : i < 16
    · simp [h1, h2, show i - 13 < 3 by omega]
    · by_cases h3 : i < 20
      · simp [h1, h2, h3, show ¬ i - 13 < 3 by omega, show i - 13 - 3 < 4 by omega]
      · by_cases h4 : i < 21
        · obtain rfl : i = 20 := by omega
          simp
        · simp [h1, h2, h3, h4, show ¬ i - 13 < 3 by omega, show ¬ i - 13 - 3 < 4 by omega,
            show ¬ i - 13 - 3 - 4 < 1 by omega, show i - 13 - 3 - 4 - 1 = i - 21 by omega]

theorem encodeAh_getLsbD (keep : BitVec 24) (byte : Byte) (i : Nat) :
    (encodeAh keep byte).getLsbD i =
      if i < 8 then byte.getLsbD i else keep.getLsbD (i - 8) := by
  simp only [encodeAh_eq, BitVec.getLsbD_append]

theorem cmdReadWord_eq (old addr : Word) :
    cmdReadWord old addr = encodeCmd (old.extractLsb' 21 11) (addr.extractLsb' 15 1)
      Config.codeRead (addr.extractLsb' 2 13) := by
  refine BitVec.eq_of_getLsbD_eq fun i hi => ?_
  rw [encodeCmd_getLsbD]
  interval_cases i <;>
    simp [cmdReadWord, cmdWord, lo13, b13At20, wa, Config.cmdClearMask, Config.waShift,
      Config.hiBitShift, Config.hiBitMask, Config.lowMask, Config.codePos, Config.codeRead]

theorem cmdWriteWord_eq (old addr : Word) :
    cmdWriteWord old addr = encodeCmd (old.extractLsb' 21 11) (addr.extractLsb' 15 1)
      Config.codeWrite (addr.extractLsb' 2 13) := by
  refine BitVec.eq_of_getLsbD_eq fun i hi => ?_
  rw [encodeCmd_getLsbD]
  interval_cases i <;>
    simp [cmdWriteWord, cmdWord, lo13, b13At20, wa, Config.cmdClearMask, Config.waShift,
      Config.hiBitShift, Config.hiBitMask, Config.lowMask, Config.codePos, Config.codeWrite]

theorem cmdWrenWord_eq (old : Word) :
    cmdWrenWord old = encodeCmd (old.extractLsb' 21 11) 0#1 Config.codeWren 0#13 := by
  refine BitVec.eq_of_getLsbD_eq fun i hi => ?_
  rw [encodeCmd_getLsbD]
  interval_cases i <;>
    simp [cmdWrenWord, cmdWord, Config.cmdClearMask, Config.codePos, Config.codeWren]

theorem ahWord_eq (old : Word) (byte : Byte) :
    ahWord old byte = encodeAh (old.extractLsb' 8 24) byte := by
  refine BitVec.eq_of_getLsbD_eq fun i hi => ?_
  rw [encodeAh_getLsbD]
  interval_cases i <;> simp [ahWord, Config.ahByteMask, Config.ahByteWidth]

theorem encodeCmd_fields (keep : BitVec 11) (b13 : BitVec 1) (code : BitVec 3) (lo : BitVec 13) :
    (encodeCmd keep b13 code lo).extractLsb' 21 11 = keep ∧
    (encodeCmd keep b13 code lo).extractLsb' 20 1 = b13 ∧
    (encodeCmd keep b13 code lo).extractLsb' 16 4 = 0#4 ∧
    (encodeCmd keep b13 code lo).extractLsb' 13 3 = code ∧
    (encodeCmd keep b13 code lo).extractLsb' 0 13 = lo := by
  refine ⟨?_, ?_, ?_, ?_, ?_⟩ <;> refine BitVec.eq_of_getLsbD_eq fun i hi => ?_ <;>
    rw [BitVec.getLsbD_extractLsb', encodeCmd_getLsbD] <;>
    interval_cases i <;> simp

theorem encodeAh_fields (keep : BitVec 24) (byte : Byte) :
    (encodeAh keep byte).extractLsb' 8 24 = keep ∧ (encodeAh keep byte).extractLsb' 0 8 = byte := by
  refine ⟨?_, ?_⟩ <;> refine BitVec.eq_of_getLsbD_eq fun i hi => ?_ <;>
    rw [BitVec.getLsbD_extractLsb', encodeAh_getLsbD] <;>
    interval_cases i <;> simp
end Sys2Proof.Machine
end

