-- ==== Sys2Proof/Laws/Memory.lean ====
section
/-! SUPPORT. The EEPROM memory: a read after a write, and the canonical form. -/

namespace Sys2Proof.Machine

theorem Memory.readByte_writeByte_same (m : Memory) (a : Nat) (b : Byte)
    (h : (m.map Prod.fst).Pairwise (· < ·)) : (m.writeByte a b).readByte a = b := by
  induction m with
  | nil => by_cases hb : b = Memory.unlisted <;> simp [Memory.writeByte, Memory.readByte, hb]
  | cons c rest ih =>
    obtain ⟨k, v⟩ := c
    rw [List.map_cons, List.pairwise_cons] at h
    have absent : ∀ l : Memory, (∀ x ∈ l.map Prod.fst, a < x) → l.readByte a = Memory.unlisted := by
      intro l
      induction l with
      | nil => simp [Memory.readByte]
      | cons d l ihl =>
        intro hl
        have h1 : a < d.1 := hl d.1 (by simp)
        have h2 := ihl (fun x hx => hl x (by simp only [List.map_cons, List.mem_cons]; exact .inr hx))
        simp only [Memory.readByte, h2]
        rw [if_neg (by omega)]
    rcases Nat.lt_trichotomy a k with hlt | heq | hgt
    · by_cases hb : b = Memory.unlisted
      · simp only [Memory.writeByte, hlt, hb, if_true]
        refine absent ((k, v) :: rest) (fun x hx => ?_)
        rcases List.mem_cons.1 hx with rfl | hx
        · exact hlt
        · exact Nat.lt_trans hlt (h.1 x hx)
      · simp [Memory.writeByte, Memory.readByte, hlt, hb]
    · subst heq
      by_cases hb : b = Memory.unlisted
      · simp only [Memory.writeByte, Nat.lt_irrefl, hb, if_true, if_false]
        exact absent rest h.1
      · simp [Memory.writeByte, Memory.readByte, hb]
    · have h1 : ¬ a < k := by omega
      have h2 : ¬ a = k := by omega
      have h3 : ¬ k = a := by omega
      simp [Memory.writeByte, Memory.readByte, h1, h2, h3, ih h.2]

theorem Memory.readByte_writeByte_other (m : Memory) (a b : Nat) (v : Byte) (hne : b ≠ a) :
    (m.writeByte a v).readByte b = m.readByte b := by
  induction m with
  | nil => by_cases hv : v = Memory.unlisted <;> simp [Memory.writeByte, Memory.readByte, hv, hne.symm]
  | cons c rest ih =>
    obtain ⟨k, x⟩ := c
    by_cases h1 : a < k
    · by_cases hv : v = Memory.unlisted <;> simp [Memory.writeByte, Memory.readByte, h1, hv, hne.symm]
    · by_cases h2 : a = k
      · subst h2
        by_cases hv : v = Memory.unlisted <;> simp [Memory.writeByte, Memory.readByte, hv, hne.symm]
      · simp [Memory.writeByte, Memory.readByte, h1, h2, ih]

theorem Memory.writeByte_key (m : Memory) (a : Nat) (b : Byte) (c : Host.Cell)
    (h : c ∈ m.writeByte a b) : c = (a, b) ∧ b ≠ Memory.unlisted ∨ c ∈ m := by
  induction m with
  | nil => by_cases hb : b = Memory.unlisted <;> simp_all [Memory.writeByte]
  | cons d rest ih =>
    simp only [Memory.writeByte] at h
    split at h
    · split at h <;> simp_all
    · split at h
      · split at h <;> simp_all
        tauto
      · rcases List.mem_cons.1 h with rfl | h
        · exact .inr (by simp)
        · rcases ih h with h | h
          · exact .inl h
          · exact .inr (by simp [h])

theorem Memory.wf_writeByte (m : Memory) (a : Nat) (b : Byte) (hm : m.wf) (ha : a < eepromSize) :
    (m.writeByte a b).wf := by
  refine ⟨?_, fun c hc => ?_⟩
  · obtain ⟨hp, -⟩ := hm
    induction m with
    | nil => by_cases hb : b = Memory.unlisted <;> simp [Memory.writeByte, hb]
    | cons d rest ih =>
      rw [List.map_cons, List.pairwise_cons] at hp
      simp only [Memory.writeByte]
      split
      · split
        · simpa using hp
        · rename_i hlt _
          rw [List.map_cons, List.pairwise_cons]
          refine ⟨fun x hx => ?_, by simpa using hp⟩
          rcases List.mem_cons.1 hx with rfl | hx
          · exact hlt
          · exact Nat.lt_trans hlt (hp.1 x hx)
      · split
        · rename_i heq
          split
          · exact hp.2
          · rw [List.map_cons, List.pairwise_cons]
            exact ⟨fun x hx => heq ▸ hp.1 x hx, hp.2⟩
        · rename_i h1 h2
          rw [List.map_cons, List.pairwise_cons]
          refine ⟨fun x hx => ?_, ih hp.2⟩
          obtain ⟨c, hc, rfl⟩ := List.mem_map.1 hx
          rcases Memory.writeByte_key rest a b c hc with ⟨rfl, -⟩ | hc
          · exact Nat.lt_of_le_of_ne (Nat.le_of_not_lt h1) (Ne.symm h2)
          · exact hp.1 c.1 (List.mem_map_of_mem hc)
  · rcases Memory.writeByte_key m a b c hc with ⟨rfl, hb⟩ | hc
    · exact ⟨ha, hb⟩
    · exact hm.2 c hc

theorem Memory.wf_writeWord (m : Memory) (a : Nat) (w : Word) (hm : m.wf)
    (ha : a + 3 < eepromSize) : (m.writeWord a w).wf := by
  have h0 := Memory.wf_writeByte m a (w.extractLsb' 0 8) hm (by omega)
  have h1 := Memory.wf_writeByte _ (a + 1) (w.extractLsb' 8 8) h0 (by omega)
  have h2 := Memory.wf_writeByte _ (a + 2) (w.extractLsb' 16 8) h1 (by omega)
  exact Memory.wf_writeByte _ (a + 3) (w.extractLsb' 24 8) h2 ha

theorem Memory.readByte_writeWord_other (m : Memory) (a b : Nat) (w : Word)
    (h : b < a ∨ a + 3 < b) : (m.writeWord a w).readByte b = m.readByte b := by
  simp only [Memory.writeWord]
  rw [Memory.readByte_writeByte_other _ _ _ _ (by omega),
    Memory.readByte_writeByte_other _ _ _ _ (by omega),
    Memory.readByte_writeByte_other _ _ _ _ (by omega),
    Memory.readByte_writeByte_other _ _ _ _ (by omega)]

theorem wordOfBytes_bytes (w : Word) :
    wordOfBytes (w.extractLsb' 0 8) (w.extractLsb' 8 8) (w.extractLsb' 16 8)
      (w.extractLsb' 24 8) = w := by
  refine BitVec.eq_of_getLsbD_eq fun i hi => ?_
  simp only [wordOfBytes, BitVec.getLsbD_append, BitVec.getLsbD_extractLsb']
  split
  · simp_all
  · split
    · rw [show 8 + (i - 8) = i by omega]; simp; omega
    · split
      · rw [show 16 + (i - 8 - 8) = i by omega]; simp; omega
      · rw [show 24 + (i - 8 - 8 - 8) = i by omega]; simp; omega

theorem Memory.readWord_writeWord_same (m : Memory) (a : Nat) (w : Word) (hm : m.wf)
    (ha : a + 3 < eepromSize) : (m.writeWord a w).readWord a = w := by
  have h0 := Memory.wf_writeByte m a (w.extractLsb' 0 8) hm (by omega)
  have h1 := Memory.wf_writeByte _ (a + 1) (w.extractLsb' 8 8) h0 (by omega)
  have h2 := Memory.wf_writeByte _ (a + 2) (w.extractLsb' 16 8) h1 (by omega)
  have e0 : (m.writeWord a w).readByte a = w.extractLsb' 0 8 := by
    simp only [Memory.writeWord]
    rw [Memory.readByte_writeByte_other _ _ _ _ (by omega),
      Memory.readByte_writeByte_other _ _ _ _ (by omega),
      Memory.readByte_writeByte_other _ _ _ _ (by omega),
      Memory.readByte_writeByte_same _ _ _ hm.1]
  have e1 : (m.writeWord a w).readByte (a + 1) = w.extractLsb' 8 8 := by
    simp only [Memory.writeWord]
    rw [Memory.readByte_writeByte_other _ _ _ _ (by omega),
      Memory.readByte_writeByte_other _ _ _ _ (by omega),
      Memory.readByte_writeByte_same _ _ _ h0.1]
  have e2 : (m.writeWord a w).readByte (a + 2) = w.extractLsb' 16 8 := by
    simp only [Memory.writeWord]
    rw [Memory.readByte_writeByte_other _ _ _ _ (by omega),
      Memory.readByte_writeByte_same _ _ _ h1.1]
  have e3 : (m.writeWord a w).readByte (a + 3) = w.extractLsb' 24 8 := by
    simp only [Memory.writeWord]
    rw [Memory.readByte_writeByte_same _ _ _ h2.1]
  simp only [Memory.readWord, e0, e1, e2, e3, wordOfBytes_bytes]

end Sys2Proof.Machine
end

