-- ==== Sys2Proof/Laws/State.lean ====
section
/-! SUPPORT. What each update of the state leaves in each field, so that no proof unfolds a record
update. -/

namespace Sys2Proof.Machine

@[simp] theorem State.afterRead_phase (s : State) (off : Word) :
    (s.afterRead off).phase = s.phase := rfl

@[simp] theorem State.afterRead_reqOp (s : State) (off : Word) :
    (s.afterRead off).reqOp = s.reqOp := rfl

@[simp] theorem State.afterRead_reqAddr (s : State) (off : Word) :
    (s.afterRead off).reqAddr = s.reqAddr := rfl

@[simp] theorem State.afterRead_reqData (s : State) (off : Word) :
    (s.afterRead off).reqData = s.reqData := rfl

@[simp] theorem State.afterRead_tmp (s : State) (off : Word) :
    (s.afterRead off).tmp = s.tmp := rfl

@[simp] theorem State.afterRead_result (s : State) (off : Word) :
    (s.afterRead off).result = s.result := rfl

@[simp] theorem State.afterRead_attempt (s : State) (off : Word) :
    (s.afterRead off).attempt = s.attempt := rfl

@[simp] theorem State.afterRead_outcome (s : State) (off : Word) :
    (s.afterRead off).outcome = s.outcome := rfl

@[simp] theorem State.afterRead_history (s : State) (off : Word) :
    (s.afterRead off).history = s.history ++ [.rd off (s.answer off)] := rfl

@[simp] theorem State.afterRead_env (s : State) (off : Word) :
    (s.afterRead off).env = s.env.afterRead off := rfl

@[simp] theorem State.afterRead_portUsable (s : State) (off : Word) :
    (s.afterRead off).portUsable = s.portUsable := rfl

@[simp] theorem State.afterRead_sinkUsable (s : State) (off : Word) :
    (s.afterRead off).sinkUsable = s.sinkUsable := rfl

@[simp] theorem State.afterRead_sourceUsable (s : State) (off : Word) :
    (s.afterRead off).sourceUsable = s.sourceUsable := rfl

@[simp] theorem State.afterRead_inputs (s : State) (off : Word) :
    (s.afterRead off).inputs = s.inputs := rfl

@[simp] theorem State.afterRead_client (s : State) (off : Word) :
    (s.afterRead off).client = s.client := rfl

@[simp] theorem State.afterRead_sink (s : State) (off : Word) :
    (s.afterRead off).sink = s.sink := rfl

@[simp] theorem State.afterRead_source (s : State) (off : Word) :
    (s.afterRead off).source = s.source := rfl

@[simp] theorem State.afterRead_report (s : State) (off : Word) :
    (s.afterRead off).report = s.report := rfl

@[simp] theorem State.writeReg_phase (s : State) (off w : Word) :
    (s.writeReg off w).phase = s.phase := rfl

@[simp] theorem State.writeReg_reqOp (s : State) (off w : Word) :
    (s.writeReg off w).reqOp = s.reqOp := rfl

@[simp] theorem State.writeReg_reqAddr (s : State) (off w : Word) :
    (s.writeReg off w).reqAddr = s.reqAddr := rfl

@[simp] theorem State.writeReg_reqData (s : State) (off w : Word) :
    (s.writeReg off w).reqData = s.reqData := rfl

@[simp] theorem State.writeReg_tmp (s : State) (off w : Word) :
    (s.writeReg off w).tmp = s.tmp := rfl

@[simp] theorem State.writeReg_result (s : State) (off w : Word) :
    (s.writeReg off w).result = s.result := rfl

@[simp] theorem State.writeReg_attempt (s : State) (off w : Word) :
    (s.writeReg off w).attempt = s.attempt := rfl

@[simp] theorem State.writeReg_outcome (s : State) (off w : Word) :
    (s.writeReg off w).outcome = s.outcome := rfl

@[simp] theorem State.writeReg_history (s : State) (off w : Word) :
    (s.writeReg off w).history = s.history ++ [.wr off w] := rfl

@[simp] theorem State.writeReg_env (s : State) (off w : Word) :
    (s.writeReg off w).env = s.env.afterWrite off w := rfl

@[simp] theorem State.writeReg_portUsable (s : State) (off w : Word) :
    (s.writeReg off w).portUsable = s.portUsable := rfl

@[simp] theorem State.writeReg_sinkUsable (s : State) (off w : Word) :
    (s.writeReg off w).sinkUsable = s.sinkUsable := rfl

@[simp] theorem State.writeReg_sourceUsable (s : State) (off w : Word) :
    (s.writeReg off w).sourceUsable = s.sourceUsable := rfl

@[simp] theorem State.writeReg_inputs (s : State) (off w : Word) :
    (s.writeReg off w).inputs = s.inputs := rfl

@[simp] theorem State.writeReg_client (s : State) (off w : Word) :
    (s.writeReg off w).client = s.client := rfl

@[simp] theorem State.writeReg_sink (s : State) (off w : Word) :
    (s.writeReg off w).sink = s.sink := rfl

@[simp] theorem State.writeReg_source (s : State) (off w : Word) :
    (s.writeReg off w).source = s.source := rfl

@[simp] theorem State.writeReg_report (s : State) (off w : Word) :
    (s.writeReg off w).report = s.report := rfl

@[simp] theorem State.sleepUs_phase (s : State) (us : Nat) :
    (s.sleepUs us).phase = s.phase := rfl

@[simp] theorem State.sleepUs_reqOp (s : State) (us : Nat) :
    (s.sleepUs us).reqOp = s.reqOp := rfl

@[simp] theorem State.sleepUs_reqAddr (s : State) (us : Nat) :
    (s.sleepUs us).reqAddr = s.reqAddr := rfl

@[simp] theorem State.sleepUs_reqData (s : State) (us : Nat) :
    (s.sleepUs us).reqData = s.reqData := rfl

@[simp] theorem State.sleepUs_tmp (s : State) (us : Nat) :
    (s.sleepUs us).tmp = s.tmp := rfl

@[simp] theorem State.sleepUs_result (s : State) (us : Nat) :
    (s.sleepUs us).result = s.result := rfl

@[simp] theorem State.sleepUs_attempt (s : State) (us : Nat) :
    (s.sleepUs us).attempt = s.attempt := rfl

@[simp] theorem State.sleepUs_outcome (s : State) (us : Nat) :
    (s.sleepUs us).outcome = s.outcome := rfl

@[simp] theorem State.sleepUs_history (s : State) (us : Nat) :
    (s.sleepUs us).history = s.history ++ [.sleep us] := rfl

@[simp] theorem State.sleepUs_env (s : State) (us : Nat) :
    (s.sleepUs us).env = s.env := rfl

@[simp] theorem State.sleepUs_portUsable (s : State) (us : Nat) :
    (s.sleepUs us).portUsable = s.portUsable := rfl

@[simp] theorem State.sleepUs_sinkUsable (s : State) (us : Nat) :
    (s.sleepUs us).sinkUsable = s.sinkUsable := rfl

@[simp] theorem State.sleepUs_sourceUsable (s : State) (us : Nat) :
    (s.sleepUs us).sourceUsable = s.sourceUsable := rfl

@[simp] theorem State.sleepUs_inputs (s : State) (us : Nat) :
    (s.sleepUs us).inputs = s.inputs := rfl

@[simp] theorem State.sleepUs_client (s : State) (us : Nat) :
    (s.sleepUs us).client = s.client := rfl

@[simp] theorem State.sleepUs_sink (s : State) (us : Nat) :
    (s.sleepUs us).sink = s.sink := rfl

@[simp] theorem State.sleepUs_source (s : State) (us : Nat) :
    (s.sleepUs us).source = s.source := rfl

@[simp] theorem State.sleepUs_report (s : State) (us : Nat) :
    (s.sleepUs us).report = s.report := rfl

@[simp] theorem State.raise_phase (s : State) (e : EngineError) :
    (s.raise e).phase = .fault := rfl

@[simp] theorem State.raise_reqOp (s : State) (e : EngineError) :
    (s.raise e).reqOp = s.reqOp := rfl

@[simp] theorem State.raise_reqAddr (s : State) (e : EngineError) :
    (s.raise e).reqAddr = s.reqAddr := rfl

@[simp] theorem State.raise_reqData (s : State) (e : EngineError) :
    (s.raise e).reqData = s.reqData := rfl

@[simp] theorem State.raise_tmp (s : State) (e : EngineError) :
    (s.raise e).tmp = s.tmp := rfl

@[simp] theorem State.raise_result (s : State) (e : EngineError) :
    (s.raise e).result = s.result := rfl

@[simp] theorem State.raise_attempt (s : State) (e : EngineError) :
    (s.raise e).attempt = s.attempt := rfl

@[simp] theorem State.raise_outcome (s : State) (e : EngineError) :
    (s.raise e).outcome = some (.fault e) := rfl

@[simp] theorem State.raise_history (s : State) (e : EngineError) :
    (s.raise e).history = s.history := rfl

@[simp] theorem State.raise_env (s : State) (e : EngineError) :
    (s.raise e).env = s.env := rfl

@[simp] theorem State.raise_portUsable (s : State) (e : EngineError) :
    (s.raise e).portUsable = s.portUsable := rfl

@[simp] theorem State.raise_sinkUsable (s : State) (e : EngineError) :
    (s.raise e).sinkUsable = s.sinkUsable := rfl

@[simp] theorem State.raise_sourceUsable (s : State) (e : EngineError) :
    (s.raise e).sourceUsable = s.sourceUsable := rfl

@[simp] theorem State.raise_inputs (s : State) (e : EngineError) :
    (s.raise e).inputs = s.inputs := rfl

@[simp] theorem State.raise_client (s : State) (e : EngineError) :
    (s.raise e).client = s.client := rfl

@[simp] theorem State.raise_sink (s : State) (e : EngineError) :
    (s.raise e).sink = s.sink := rfl

@[simp] theorem State.raise_source (s : State) (e : EngineError) :
    (s.raise e).source = s.source := rfl

@[simp] theorem State.raise_report (s : State) (e : EngineError) :
    (s.raise e).report = s.report := rfl

@[simp] theorem State.complete_phase (s : State) (r : Response) :
    (s.complete r).phase = .idle := rfl

@[simp] theorem State.complete_reqOp (s : State) (r : Response) :
    (s.complete r).reqOp = s.reqOp := rfl

@[simp] theorem State.complete_reqAddr (s : State) (r : Response) :
    (s.complete r).reqAddr = s.reqAddr := rfl

@[simp] theorem State.complete_reqData (s : State) (r : Response) :
    (s.complete r).reqData = s.reqData := rfl

@[simp] theorem State.complete_tmp (s : State) (r : Response) :
    (s.complete r).tmp = s.tmp := rfl

@[simp] theorem State.complete_result (s : State) (r : Response) :
    (s.complete r).result = s.result := rfl

@[simp] theorem State.complete_attempt (s : State) (r : Response) :
    (s.complete r).attempt = s.attempt := rfl

@[simp] theorem State.complete_outcome (s : State) (r : Response) :
    (s.complete r).outcome = some r := rfl

@[simp] theorem State.complete_history (s : State) (r : Response) :
    (s.complete r).history = s.history := rfl

@[simp] theorem State.complete_env (s : State) (r : Response) :
    (s.complete r).env = s.env := rfl

@[simp] theorem State.complete_portUsable (s : State) (r : Response) :
    (s.complete r).portUsable = s.portUsable := rfl

@[simp] theorem State.complete_sinkUsable (s : State) (r : Response) :
    (s.complete r).sinkUsable = s.sinkUsable := rfl

@[simp] theorem State.complete_sourceUsable (s : State) (r : Response) :
    (s.complete r).sourceUsable = s.sourceUsable := rfl

@[simp] theorem State.complete_inputs (s : State) (r : Response) :
    (s.complete r).inputs = s.inputs := rfl

@[simp] theorem State.complete_client (s : State) (r : Response) :
    (s.complete r).client = s.client := rfl

@[simp] theorem State.complete_sink (s : State) (r : Response) :
    (s.complete r).sink = s.sink := rfl

@[simp] theorem State.complete_source (s : State) (r : Response) :
    (s.complete r).source = s.source := rfl

@[simp] theorem State.complete_report (s : State) (r : Response) :
    (s.complete r).report = s.report := rfl

@[simp] theorem State.emit_phase (s : State) (w : Word) :
    (s.emit w).phase = s.phase := rfl

@[simp] theorem State.emit_reqOp (s : State) (w : Word) :
    (s.emit w).reqOp = s.reqOp := rfl

@[simp] theorem State.emit_reqAddr (s : State) (w : Word) :
    (s.emit w).reqAddr = s.reqAddr := rfl

@[simp] theorem State.emit_reqData (s : State) (w : Word) :
    (s.emit w).reqData = s.reqData := rfl

@[simp] theorem State.emit_tmp (s : State) (w : Word) :
    (s.emit w).tmp = s.tmp := rfl

@[simp] theorem State.emit_result (s : State) (w : Word) :
    (s.emit w).result = s.result := rfl

@[simp] theorem State.emit_attempt (s : State) (w : Word) :
    (s.emit w).attempt = s.attempt := rfl

@[simp] theorem State.emit_outcome (s : State) (w : Word) :
    (s.emit w).outcome = s.outcome := rfl

@[simp] theorem State.emit_history (s : State) (w : Word) :
    (s.emit w).history = s.history := rfl

@[simp] theorem State.emit_env (s : State) (w : Word) :
    (s.emit w).env = s.env := rfl

@[simp] theorem State.emit_portUsable (s : State) (w : Word) :
    (s.emit w).portUsable = s.portUsable := rfl

@[simp] theorem State.emit_sinkUsable (s : State) (w : Word) :
    (s.emit w).sinkUsable = s.sinkUsable := rfl

@[simp] theorem State.emit_sourceUsable (s : State) (w : Word) :
    (s.emit w).sourceUsable = s.sourceUsable := rfl

@[simp] theorem State.emit_inputs (s : State) (w : Word) :
    (s.emit w).inputs = s.inputs := rfl

@[simp] theorem State.emit_client (s : State) (w : Word) :
    (s.emit w).client = s.client := rfl

@[simp] theorem State.emit_sink (s : State) (w : Word) :
    (s.emit w).sink = s.sink ++ wordBytes w := rfl

@[simp] theorem State.emit_source (s : State) (w : Word) :
    (s.emit w).source = s.source := rfl

@[simp] theorem State.emit_report (s : State) (w : Word) :
    (s.emit w).report = s.report := rfl

@[simp] theorem State.goTo_phase (s : State) (p : Phase) :
    (State.goTo p s).phase = p := rfl

@[simp] theorem State.goTo_reqOp (s : State) (p : Phase) :
    (State.goTo p s).reqOp = s.reqOp := rfl

@[simp] theorem State.goTo_reqAddr (s : State) (p : Phase) :
    (State.goTo p s).reqAddr = s.reqAddr := rfl

@[simp] theorem State.goTo_reqData (s : State) (p : Phase) :
    (State.goTo p s).reqData = s.reqData := rfl

@[simp] theorem State.goTo_tmp (s : State) (p : Phase) :
    (State.goTo p s).tmp = s.tmp := rfl

@[simp] theorem State.goTo_result (s : State) (p : Phase) :
    (State.goTo p s).result = s.result := rfl

@[simp] theorem State.goTo_attempt (s : State) (p : Phase) :
    (State.goTo p s).attempt = s.attempt := rfl

@[simp] theorem State.goTo_outcome (s : State) (p : Phase) :
    (State.goTo p s).outcome = s.outcome := rfl

@[simp] theorem State.goTo_history (s : State) (p : Phase) :
    (State.goTo p s).history = s.history := rfl

@[simp] theorem State.goTo_env (s : State) (p : Phase) :
    (State.goTo p s).env = s.env := rfl

@[simp] theorem State.goTo_portUsable (s : State) (p : Phase) :
    (State.goTo p s).portUsable = s.portUsable := rfl

@[simp] theorem State.goTo_sinkUsable (s : State) (p : Phase) :
    (State.goTo p s).sinkUsable = s.sinkUsable := rfl

@[simp] theorem State.goTo_sourceUsable (s : State) (p : Phase) :
    (State.goTo p s).sourceUsable = s.sourceUsable := rfl

@[simp] theorem State.goTo_inputs (s : State) (p : Phase) :
    (State.goTo p s).inputs = s.inputs := rfl

@[simp] theorem State.goTo_client (s : State) (p : Phase) :
    (State.goTo p s).client = s.client := rfl

@[simp] theorem State.goTo_sink (s : State) (p : Phase) :
    (State.goTo p s).sink = s.sink := rfl

@[simp] theorem State.goTo_source (s : State) (p : Phase) :
    (State.goTo p s).source = s.source := rfl

@[simp] theorem State.goTo_report (s : State) (p : Phase) :
    (State.goTo p s).report = s.report := rfl

@[simp] theorem State.startPoll_phase (s : State) (p : Phase) :
    (State.startPoll p s).phase = p := rfl

@[simp] theorem State.startPoll_reqOp (s : State) (p : Phase) :
    (State.startPoll p s).reqOp = s.reqOp := rfl

@[simp] theorem State.startPoll_reqAddr (s : State) (p : Phase) :
    (State.startPoll p s).reqAddr = s.reqAddr := rfl

@[simp] theorem State.startPoll_reqData (s : State) (p : Phase) :
    (State.startPoll p s).reqData = s.reqData := rfl

@[simp] theorem State.startPoll_tmp (s : State) (p : Phase) :
    (State.startPoll p s).tmp = s.tmp := rfl

@[simp] theorem State.startPoll_result (s : State) (p : Phase) :
    (State.startPoll p s).result = s.result := rfl

@[simp] theorem State.startPoll_attempt (s : State) (p : Phase) :
    (State.startPoll p s).attempt = 0 := rfl

@[simp] theorem State.startPoll_outcome (s : State) (p : Phase) :
    (State.startPoll p s).outcome = s.outcome := rfl

@[simp] theorem State.startPoll_history (s : State) (p : Phase) :
    (State.startPoll p s).history = s.history := rfl

@[simp] theorem State.startPoll_env (s : State) (p : Phase) :
    (State.startPoll p s).env = s.env := rfl

@[simp] theorem State.startPoll_portUsable (s : State) (p : Phase) :
    (State.startPoll p s).portUsable = s.portUsable := rfl

@[simp] theorem State.startPoll_sinkUsable (s : State) (p : Phase) :
    (State.startPoll p s).sinkUsable = s.sinkUsable := rfl

@[simp] theorem State.startPoll_sourceUsable (s : State) (p : Phase) :
    (State.startPoll p s).sourceUsable = s.sourceUsable := rfl

@[simp] theorem State.startPoll_inputs (s : State) (p : Phase) :
    (State.startPoll p s).inputs = s.inputs := rfl

@[simp] theorem State.startPoll_client (s : State) (p : Phase) :
    (State.startPoll p s).client = s.client := rfl

@[simp] theorem State.startPoll_sink (s : State) (p : Phase) :
    (State.startPoll p s).sink = s.sink := rfl

@[simp] theorem State.startPoll_source (s : State) (p : Phase) :
    (State.startPoll p s).source = s.source := rfl

@[simp] theorem State.startPoll_report (s : State) (p : Phase) :
    (State.startPoll p s).report = s.report := rfl

@[simp] theorem State.latchTmp_phase (s : State) (off : Word) (p : Phase) :
    (s.latchTmp off p).phase = p := rfl

@[simp] theorem State.latchTmp_reqOp (s : State) (off : Word) (p : Phase) :
    (s.latchTmp off p).reqOp = s.reqOp := rfl

@[simp] theorem State.latchTmp_reqAddr (s : State) (off : Word) (p : Phase) :
    (s.latchTmp off p).reqAddr = s.reqAddr := rfl

@[simp] theorem State.latchTmp_reqData (s : State) (off : Word) (p : Phase) :
    (s.latchTmp off p).reqData = s.reqData := rfl

@[simp] theorem State.latchTmp_tmp (s : State) (off : Word) (p : Phase) :
    (s.latchTmp off p).tmp = s.answer off := rfl

@[simp] theorem State.latchTmp_result (s : State) (off : Word) (p : Phase) :
    (s.latchTmp off p).result = s.result := rfl

@[simp] theorem State.latchTmp_attempt (s : State) (off : Word) (p : Phase) :
    (s.latchTmp off p).attempt = s.attempt := rfl

@[simp] theorem State.latchTmp_outcome (s : State) (off : Word) (p : Phase) :
    (s.latchTmp off p).outcome = s.outcome := rfl

@[simp] theorem State.latchTmp_history (s : State) (off : Word) (p : Phase) :
    (s.latchTmp off p).history = s.history ++ [.rd off (s.answer off)] := rfl

@[simp] theorem State.latchTmp_env (s : State) (off : Word) (p : Phase) :
    (s.latchTmp off p).env = s.env.afterRead off := rfl

@[simp] theorem State.latchTmp_portUsable (s : State) (off : Word) (p : Phase) :
    (s.latchTmp off p).portUsable = s.portUsable := rfl

@[simp] theorem State.latchTmp_sinkUsable (s : State) (off : Word) (p : Phase) :
    (s.latchTmp off p).sinkUsable = s.sinkUsable := rfl

@[simp] theorem State.latchTmp_sourceUsable (s : State) (off : Word) (p : Phase) :
    (s.latchTmp off p).sourceUsable = s.sourceUsable := rfl

@[simp] theorem State.latchTmp_inputs (s : State) (off : Word) (p : Phase) :
    (s.latchTmp off p).inputs = s.inputs := rfl

@[simp] theorem State.latchTmp_client (s : State) (off : Word) (p : Phase) :
    (s.latchTmp off p).client = s.client := rfl

@[simp] theorem State.latchTmp_sink (s : State) (off : Word) (p : Phase) :
    (s.latchTmp off p).sink = s.sink := rfl

@[simp] theorem State.latchTmp_source (s : State) (off : Word) (p : Phase) :
    (s.latchTmp off p).source = s.source := rfl

@[simp] theorem State.latchTmp_report (s : State) (off : Word) (p : Phase) :
    (s.latchTmp off p).report = s.report := rfl

@[simp] theorem State.readData_phase (s : State) :
    s.readData.phase = .idle := rfl

@[simp] theorem State.readData_reqOp (s : State) :
    s.readData.reqOp = s.reqOp := rfl

@[simp] theorem State.readData_reqAddr (s : State) :
    s.readData.reqAddr = s.reqAddr := rfl

@[simp] theorem State.readData_reqData (s : State) :
    s.readData.reqData = s.reqData := rfl

@[simp] theorem State.readData_tmp (s : State) :
    s.readData.tmp = s.tmp := rfl

@[simp] theorem State.readData_result (s : State) :
    s.readData.result = s.answer Config.offData := rfl

@[simp] theorem State.readData_attempt (s : State) :
    s.readData.attempt = s.attempt := rfl

@[simp] theorem State.readData_outcome (s : State) :
    s.readData.outcome = some (.okValue (s.answer Config.offData)) := rfl

@[simp] theorem State.readData_history (s : State) :
    s.readData.history = s.history ++ [.rd Config.offData (s.answer Config.offData)] := rfl

@[simp] theorem State.readData_env (s : State) :
    s.readData.env = s.env.afterRead Config.offData := rfl

@[simp] theorem State.readData_portUsable (s : State) :
    s.readData.portUsable = s.portUsable := rfl

@[simp] theorem State.readData_sinkUsable (s : State) :
    s.readData.sinkUsable = s.sinkUsable := rfl

@[simp] theorem State.readData_sourceUsable (s : State) :
    s.readData.sourceUsable = s.sourceUsable := rfl

@[simp] theorem State.readData_inputs (s : State) :
    s.readData.inputs = s.inputs := rfl

@[simp] theorem State.readData_client (s : State) :
    s.readData.client = s.client := rfl

@[simp] theorem State.readData_sink (s : State) :
    s.readData.sink = s.sink := rfl

@[simp] theorem State.readData_source (s : State) :
    s.readData.source = s.source := rfl

@[simp] theorem State.readData_report (s : State) :
    s.readData.report = s.report := rfl

@[simp] theorem State.writeData_phase (s : State) :
    s.writeData.phase = .wrCmdR := rfl

@[simp] theorem State.writeData_reqOp (s : State) :
    s.writeData.reqOp = s.reqOp := rfl

@[simp] theorem State.writeData_reqAddr (s : State) :
    s.writeData.reqAddr = s.reqAddr := rfl

@[simp] theorem State.writeData_reqData (s : State) :
    s.writeData.reqData = s.reqData := rfl

@[simp] theorem State.writeData_tmp (s : State) :
    s.writeData.tmp = s.tmp := rfl

@[simp] theorem State.writeData_result (s : State) :
    s.writeData.result = s.result := rfl

@[simp] theorem State.writeData_attempt (s : State) :
    s.writeData.attempt = s.attempt := rfl

@[simp] theorem State.writeData_outcome (s : State) :
    s.writeData.outcome = s.outcome := rfl

@[simp] theorem State.writeData_history (s : State) :
    s.writeData.history = s.history ++ [.wr Config.offData s.reqData] := rfl

@[simp] theorem State.writeData_env (s : State) :
    s.writeData.env = s.env.afterWrite Config.offData s.reqData := rfl

@[simp] theorem State.writeData_portUsable (s : State) :
    s.writeData.portUsable = s.portUsable := rfl

@[simp] theorem State.writeData_sinkUsable (s : State) :
    s.writeData.sinkUsable = s.sinkUsable := rfl

@[simp] theorem State.writeData_sourceUsable (s : State) :
    s.writeData.sourceUsable = s.sourceUsable := rfl

@[simp] theorem State.writeData_inputs (s : State) :
    s.writeData.inputs = s.inputs := rfl

@[simp] theorem State.writeData_client (s : State) :
    s.writeData.client = s.client := rfl

@[simp] theorem State.writeData_sink (s : State) :
    s.writeData.sink = s.sink := rfl

@[simp] theorem State.writeData_source (s : State) :
    s.writeData.source = s.source := rfl

@[simp] theorem State.writeData_report (s : State) :
    s.writeData.report = s.report := rfl

end Sys2Proof.Machine
end

