-- ==== Sys2Proof/Laws/Ops.lean ====
section
/-! SUPPORT. What each shared operation can do: if it answers a next state, which one. -/

namespace Sys2Proof.Machine

/-- A register word: issued by the engine in its own phase, or written by the client in IDLE. -/
theorem issueWord_next {s t : State} {own : Phase} {after : State → State} {off w : Word}
    (h : s.issueWord own after off w = .next t) :
    (s.phase = own ∧ t = after (s.writeReg off w)) ∨
      (s.phase ≠ own ∧ s.phase = .idle ∧ t = s.writeReg off w) := by
  unfold State.issueWord at h
  split at h
  · rename_i h1
    exact .inl ⟨h1, by cases h; rfl⟩
  · split at h
    · rename_i h1 h2
      exact .inr ⟨h1, h2, by cases h; rfl⟩
    · split at h <;> cases h

/-- A request: accepted, or refused with AddressingError, and in IDLE only. -/
theorem accept_next {s t : State} {op : Op} {addr data : Word}
    (h : s.accept op addr data = .next t) :
    s.phase = .idle ∧
      ((legal addr = true ∧
          t = { s with reqOp := op, reqAddr := addr, reqData := data, phase := firstPhase op }) ∨
        (legal addr = false ∧
          t = State.raise { s with reqOp := op, reqAddr := addr, reqData := data }
            (.addressing addr))) := by
  unfold State.accept at h
  split at h
  · rename_i h1
    refine ⟨h1, ?_⟩
    cases hl : legal addr <;> simp [hl] at h <;> subst h
    · exact .inr ⟨rfl, rfl⟩
    · exact .inl ⟨rfl, rfl⟩
  · split at h <;> cases h

/-- A raw command word: written by the client in IDLE only. -/
theorem rawCommand_next {s t : State} {w : Word} (h : s.rawCommand w = .next t) :
    s.phase = .idle ∧ t = s.writeReg Config.offCmd w := by
  unfold State.rawCommand at h
  split at h
  · rename_i h1
    exact ⟨h1, by cases h; rfl⟩
  · split at h <;> cases h

/-- A poll attempt sleeps next or goes on, by the busy flag of the one word it reads. -/
theorem pollAttempt_cases (s : State) (sleepPhase : Phase) (onClear : State → State) :
    (busy (s.answer Config.offCmd) = true ∧ s.pollAttempt sleepPhase onClear =
      { s.afterRead Config.offCmd with attempt := s.attempt + 1, phase := sleepPhase }) ∨
    (busy (s.answer Config.offCmd) = false ∧ s.pollAttempt sleepPhase onClear =
      onClear { s.afterRead Config.offCmd with attempt := s.attempt + 1 }) := by
  cases hb : busy (s.answer Config.offCmd) <;> simp [State.pollAttempt, hb]

/-- The sleep after a busy attempt ends in the timeout at the 100th, and in the next attempt before
it. -/
theorem pollSleep_cases (s : State) (kind : PollKind) (pollPhase : Phase) :
    (s.attempt = 100 ∧ s.pollSleep kind pollPhase =
      (s.sleepUs Config.pollIntervalUs).raise (.timeout kind)) ∨
    (s.attempt ≠ 100 ∧ s.pollSleep kind pollPhase =
      { s.sleepUs Config.pollIntervalUs with phase := pollPhase }) := by
  by_cases h : s.attempt = 100
  · exact .inl ⟨h, if_pos h⟩
  · exact .inr ⟨h, if_neg h⟩

/-- The index rule of each mode with its literals (95_test_vectors.md section 2). -/
theorem RefCtl.index_eq (c : RefCtl) (w : Word) : c.index w =
    match c.mode with
    | .a => (w.extractLsb' 20 1 ++ w.extractLsb' 0 13).toNat
    | .b => (c.r26C.extractLsb' 0 8 ++ w.extractLsb' 20 1 ++ w.extractLsb' 0 13).toNat := rfl

/-- The index a command word selects lies in the EEPROM address space. -/
theorem RefCtl.index_lt (c : RefCtl) (w : Word) : 4 * c.index w + 3 < eepromSize := by
  rw [RefCtl.index_eq]
  unfold eepromSize
  split
  · have := (w.extractLsb' 20 1 ++ w.extractLsb' 0 13).isLt
    omega
  · have := (c.r26C.extractLsb' 0 8 ++ w.extractLsb' 20 1 ++ w.extractLsb' 0 13).isLt
    omega

/-- The fixture's reserved command words with their literals (30_encoding.md R105). -/
theorem reservedCommand_eq (w : Word) : reservedCommand w =
    (w.extractLsb' 16 4 != 0#4 || w.extractLsb' 13 3 == 0#3 || w.extractLsb' 13 3 == 4#3 ||
      w.extractLsb' 13 3 == 7#3) := rfl

/-- A register write keeps the EEPROM content in canonical form. -/
theorem RefCtl.wf_write (c : RefCtl) (off w : Word) (h : c.mem.wf) : (c.write off w).mem.wf := by
  unfold RefCtl.write RefCtl.command
  split
  · split
    · exact h
    · split
      · exact Memory.wf_writeWord c.mem _ c.r264 h (c.index_lt w)
      · exact h
  · split
    · exact h
    · split <;> exact h

/-- A read leaves the EEPROM content. -/
@[simp] theorem RefCtl.afterRead_mem (c : RefCtl) (off : Word) : (c.afterRead off).mem = c.mem := by
  unfold RefCtl.afterRead
  split <;> rfl

/-- The address placed for a command word carries its fields (41_command_encoder.md R145). -/
theorem placedAddr_eq (b13 : BitVec 1) (lo : BitVec 13) :
    placedAddr b13 lo = 0#16 ++ b13 ++ lo ++ 0#2 := by
  refine BitVec.eq_of_getLsbD_eq fun i hi => ?_
  simp only [placedAddr, Config.hiBitIndex, Config.waShift, BitVec.getLsbD_append]
  interval_cases i <;> simp [Config.lowWidth]

/-- A port or handle that is usable lets the client's move stand; an unusable one is ResourceError
(60_exceptions.md R255). -/
@[simp] theorem needing_true (s : State) (move : ClientMove) : s.needing true move = move := rfl
@[simp] theorem needing_false (s : State) (move : ClientMove) :
    s.needing false move = s.fail .resource := rfl

/-- The client with an empty stream waits. -/
theorem clientMove_empty {s : State} (hc : s.client = .none) (hi : s.inputs = []) :
    clientMove s = .quiet s := by
  simp only [clientMove, State.nextInput, hc, hi]

/-- An input whose handles are usable is taken off the stream and started. -/
theorem clientMove_ready {s : State} {x : Input} {rest : List Input} (hc : s.client = .none)
    (hi : s.inputs = x :: rest) (hr : s.ready x = true) :
    clientMove s = State.start { s with inputs := rest } x := by
  simp only [clientMove, State.nextInput, hc, hi, hr, needing_true]

/-- An input with a handle that is not usable is ResourceError. -/
theorem clientMove_unready {s : State} {x : Input} {rest : List Input} (hc : s.client = .none)
    (hi : s.inputs = x :: rest) (hr : s.ready x = false) :
    clientMove s = State.fail { s with inputs := rest } .resource := by
  simp only [clientMove, State.nextInput, hc, hi, hr, needing_false]

/-- A move without a transaction is the whole step. -/
theorem step_quiet {s t : State} (hp : s.phase = .idle) (hm : clientMove s = .quiet t) :
    step s = .next t := by
  simp only [step, fetch, microStep, quietClientStep, hp, hm, if_true]

end Sys2Proof.Machine
end

