-- ==== Sys2Proof/Laws/PerInstr.lean ====
section
/-! SUPPORT. One family of statements per instruction: the encoded instruction is of its own row of
the opcode map (30_encoding.md R101), with the row's place, mask and match. -/

namespace Sys2Proof.Laws.RowMatch

open Sys2Proof.Machine

/-- The packet of a well-formed instruction stands in the row's place and has the row's fixed
bits. -/
def Statement (i : Instr) : Prop :=
  i.wf = true →
    match i with
    | .read _ _ => ∃ b, encode i = .req b ∧ b.getLsbD 64 = false
    | .write _ _ => ∃ b, encode i = .req b ∧ b.getLsbD 64 = true
    | .cmdRead _ _ _ => ∃ w, encode i = .cmd w ∧ w &&& 0x000FE000#32 = 0x00006000#32
    | .cmdWren _ => ∃ w, encode i = .cmd w ∧ w &&& 0x001FFFFF#32 = 0x0000C000#32
    | .cmdWrite _ _ _ => ∃ w, encode i = .cmd w ∧ w &&& 0x000FE000#32 = 0x00004000#32
    | .ahRd _ _ => ∃ w, encode i = .ah .read w ∧ w &&& 0x000000FF#32 = 0x00000000#32
    | .ahWr _ _ => ∃ w, encode i = .ah .write w ∧ w &&& 0x00000000#32 = 0x00000000#32
    | .unlock1 => ∃ w, encode i = .cmd w ∧ w &&& 0xFFFFFFFF#32 = 0x0000A000#32
    | .unlock2 => ∃ w, encode i = .cmd w ∧ w &&& 0xFFFFFFFF#32 = 0x00002000#32

theorem read (addr data : Word) : Statement (.read addr data) := by
  intro _
  refine ⟨_, rfl, ?_⟩
  simp only [encodeReq, BitVec.getLsbD_append]
  simp [encodeOp]

theorem write (addr data : Word) : Statement (.write addr data) := by
  intro _
  refine ⟨_, rfl, ?_⟩
  simp only [encodeReq, BitVec.getLsbD_append]
  simp [encodeOp]

theorem cmdRead (keep : BitVec 11) (b13 : BitVec 1) (lo : BitVec 13) :
    Statement (.cmdRead keep b13 lo) := by
  intro _
  refine ⟨_, rfl, BitVec.eq_of_getLsbD_eq fun i hi => ?_⟩
  rw [BitVec.getLsbD_and, encodeCmd_getLsbD]
  interval_cases i <;> simp <;> decide

theorem cmdWren (keep : BitVec 11) : Statement (.cmdWren keep) := by
  intro _
  refine ⟨_, rfl, BitVec.eq_of_getLsbD_eq fun i hi => ?_⟩
  rw [BitVec.getLsbD_and, encodeCmd_getLsbD]
  interval_cases i <;> simp <;> decide

theorem cmdWrite (keep : BitVec 11) (b13 : BitVec 1) (lo : BitVec 13) :
    Statement (.cmdWrite keep b13 lo) := by
  intro _
  refine ⟨_, rfl, BitVec.eq_of_getLsbD_eq fun i hi => ?_⟩
  rw [BitVec.getLsbD_and, encodeCmd_getLsbD]
  interval_cases i <;> simp <;> decide

theorem ahRd (keep : BitVec 24) (byte : Byte) : Statement (.ahRd keep byte) := by
  intro h
  have hb : byte = 0#8 := by simpa [Instr.wf] using h
  subst hb
  refine ⟨_, rfl, BitVec.eq_of_getLsbD_eq fun i hi => ?_⟩
  rw [BitVec.getLsbD_and, encodeAh_getLsbD]
  interval_cases i <;> simp

theorem ahWr (keep : BitVec 24) (byte : Byte) : Statement (.ahWr keep byte) :=
  fun _ => ⟨_, rfl, BitVec.and_zero⟩

theorem unlock1 : Statement .unlock1 :=
  fun _ => ⟨_, rfl, rfl⟩

theorem unlock2 : Statement .unlock2 :=
  fun _ => ⟨_, rfl, rfl⟩

end Sys2Proof.Laws.RowMatch
end

