-- ==== Sys2Proof/Laws/Run.lean ====
section
/-! SUPPORT. Runs: the first step of a run, and runs one after the other. -/

namespace Sys2Proof.Machine

@[simp] theorem runSteps_zero (s : State) : runSteps 0 s = .next s := rfl

/-- A run whose first step answers a next state goes on from there. -/
theorem runSteps_next {n : Nat} {s t : State} (h : step s = .next t) :
    runSteps (n + 1) s = runSteps n t := by
  have h' : core.step s = .next t := h
  simp only [runSteps, Host.Core.run, h']
  rfl

theorem runSteps_fault {n : Nat} {s : State} {f : Fault} (h : step s = .fault f) :
    runSteps (n + 1) s = .fault f := by
  have h' : core.step s = .fault f := h
  simp only [runSteps, Host.Core.run, h']
  rfl

theorem runSteps_refused {n : Nat} {s : State} {r : Refusal} (h : step s = .refused r) :
    runSteps (n + 1) s = .refused r := by
  have h' : core.step s = .refused r := h
  simp only [runSteps, Host.Core.run, h']
  rfl

/-- Two runs, one after the other. -/
theorem runSteps_add {n m : Nat} {s t : State} (h : runSteps n s = .next t) :
    runSteps (n + m) s = runSteps m t := by
  induction n generalizing s with
  | zero =>
    cases h
    rw [Nat.zero_add]
  | succ n ih =>
    rw [Nat.add_right_comm]
    cases hs : step s with
    | next u =>
      rw [runSteps_next hs] at h ⊢
      exact ih h
    | fault f =>
      rw [runSteps_fault hs] at h
      cases h
    | refused r =>
      rw [runSteps_refused hs] at h
      cases h

end Sys2Proof.Machine
end

