-- ==== Sys2Proof/Tests/Slice0.lean ====
section
/-! SUPPORT. Small tests whose expected values stand in the spec (95_test_vectors.md unless another
file is named), and for every statement with hypotheses a state and operands that meet them. -/

namespace Sys2Proof.Tests

open Sys2Proof Sys2Proof.Machine

/-! ## Helpers -/

/-- An engine in a phase, with the answers the coming reads get. -/
def atPhase (p : Phase) (answers : List Word) : State :=
  { State.reset with phase := p, env := .oracle answers }

/-- A client in `IDLE` with a stream and the answers the coming reads get. -/
def withInputs (inputs : List Input) (answers : List Word) : State :=
  { State.reset with inputs := inputs, env := .oracle answers }

/-- A reference controller with its registers 0. -/
def ctl (polls : Nat) (mode : CtlMode) (mem : Memory) : RefCtl :=
  { polls := polls, mode := mode, stuck := false, r260 := 0#32, r264 := 0#32, r26C := 0#32,
    pending := 0, mem := mem }

/-- A client in `IDLE` with a stream, against a reference controller. -/
def withCtl (inputs : List Input) (c : RefCtl) : State :=
  { State.reset with inputs := inputs, env := .refCtl c }

/-- The state an outcome goes on to, compared field by field. -/
def goesTo (o : Host.Outcome State Fault Refusal) (f : State → Bool) : Bool :=
  match o with
  | .next t => f t
  | .fault _ => false
  | .refused _ => false

theorem goesTo_next {o : Host.Outcome State Fault Refusal} {f : State → Bool}
    (h : goesTo o f = true) : ∃ t, o = .next t ∧ f t = true := by
  cases o with
  | next t => exact ⟨t, rfl, h⟩
  | fault _ => cases h
  | refused _ => cases h

/-! ## Well-formedness (30_encoding.md R101) -/

theorem test_wf_ahRd_low_byte_refused :
    (Instr.ahRd 0x123456#24 0x04#8).wf = false ∧ (Instr.ahRd 0x123456#24 0x00#8).wf = true := by
  decide

theorem test_wf_others_free :
    (Instr.read 3#32 0#32).wf = true ∧ (Instr.write 0xFFFFFFFF#32 0#32).wf = true ∧
    (Instr.cmdRead 0#11 1#1 0#13).wf = true ∧ (Instr.cmdWren 0x7FF#11).wf = true ∧
    (Instr.cmdWrite 0#11 0#1 0x1FFF#13).wf = true ∧ (Instr.ahWr 0#24 0xFF#8).wf = true ∧
    Instr.unlock1.wf = true ∧ Instr.unlock2.wf = true := by
  decide

/-! ## Decoding: words written out from 30_encoding.md R91 to R96 and section 3.2 -/

theorem test_decode_read :
    decode (.req 0b0_00000000000000001010101111001100_00000000000000000000000000000101#65) =
      .ok (.read 0x0000ABCC#32 5#32) := by
  decide

theorem test_decode_write :
    decode (.req 0b1_00000000000000001010101111001100_11011110101011011011111011101111#65) =
      .ok (.write 0x0000ABCC#32 0xDEADBEEF#32) := by
  decide

/-- `cmd_read(0xABE5A5A5, 0x012344) = 0xABE068D1`: KEEP `10101011111`, ADDR_B13 `0`, zero `0000`,
CODE `011`, ADDR_LO `0100011010001`. -/
theorem test_decode_cmdRead :
    decode (.cmd 0b10101011111_0_0000_011_0100011010001#32) =
      .ok (.cmdRead 0x55F#11 0#1 0x08D1#13) ∧
    decode (.cmd 0x0010737B#32) = .ok (.cmdRead 0#11 1#1 0x137B#13) := by
  decide

theorem test_decode_cmdWren :
    decode (.cmd 0b10101011111_0_0000_110_0000000000000#32) = .ok (.cmdWren 0x55F#11) := by
  decide

theorem test_decode_cmdWrite :
    decode (.cmd 0b10101011111_0_0000_010_0100011010001#32) =
      .ok (.cmdWrite 0x55F#11 0#1 0x08D1#13) ∧
    decode (.cmd 0x0010537B#32) = .ok (.cmdWrite 0#11 1#1 0x137B#13) := by
  decide

theorem test_decode_addressHigh :
    decode (.ah .read 0b000100100011010001010110_00000000#32) =
      .ok (.ahRd 0x123456#24 0x00#8) ∧
    decode (.ah .write 0b000100100011010001010110_00000100#32) =
      .ok (.ahWr 0x123456#24 0x04#8) := by
  decide

theorem test_decode_unlock :
    decode (.cmd 0b00000000000000001010000000000000#32) = .ok .unlock1 ∧
    decode (.cmd 0b00000000000000000010000000000000#32) = .ok .unlock2 := by
  decide

/-- Reserved words: codes 0, 4 and 7, a busy bit, an unlock word with a preserved bit, a
write-enable word with an address (30_encoding.md R105). -/
theorem test_decode_reserved :
    decodeCmd 0x00000000#32 = .error (.reservedCode 0#3) ∧
    decodeCmd 0x00008000#32 = .error (.reservedCode 4#3) ∧
    decodeCmd 0x0000E000#32 = .error (.reservedCode 7#3) ∧
    decodeCmd 0x00046000#32 = .error .reservedBits ∧
    decodeCmd 0x0020A000#32 = .error (.reservedCode 5#3) ∧
    decodeCmd 0x0010C000#32 = .error .writeEnableFields := by
  decide

/-- The table's own words: each row's match, and a request of 65 bits. -/
theorem test_decodeTableWord :
    decodeTableWord 32 0x6000 = some (.cmdRead 0#11 0#1 0#13) ∧
    decodeTableWord 32 0xC000 = some (.cmdWren 0#11) ∧
    decodeTableWord 32 0x4000 = some (.cmdWrite 0#11 0#1 0#13) ∧
    decodeTableWord 32 0 = some (.ahRd 0#24 0#8) ∧
    decodeTableWord 32 0xFF = some (.ahWr 0#24 0xFF#8) ∧
    decodeTableWord 32 0xA000 = some .unlock1 ∧ decodeTableWord 32 0x2000 = some .unlock2 ∧
    decodeTableWord 72 (4 * 2 ^ 32) = some (.read 4#32 0#32) ∧
    decodeTableWord 72 (2 ^ 64 + 4 * 2 ^ 32 + 7) = some (.write 4#32 7#32) := by
  decide

/-! ## Splitter and encoder, sections 3.1 and 3.2 -/

theorem test_splitter :
    (wa 0xABCDEC#32, lo13 0xABCDEC#32, b13At20 0xABCDEC#32) =
      (0x2AF37B#32, 0x137B#32, 0x00100000#32) ∧
    (ahRdByte 0xABCDEC#32, ahWrByte 0xABCDEC#32) = (0x00#8, 0xAF#8) ∧
    (ahWrByte 0x3FFC#32, ahWrByte 0x4000#32, ahWrByte 0x400000#32) = (0x00#8, 0x01#8, 0x00#8) ∧
    ahWord 0#32 0xAF#8 = 0x000000AF#32 := by
  decide

theorem test_commandWords :
    cmdReadWord 0xFFFFFFFF#32 0x8004#32 = 0xFFF06001#32 ∧
    cmdWrenWord 0xFFFFFFFF#32 = 0xFFE0C000#32 ∧
    cmdWriteWord 0xFFFFFFFF#32 0x8004#32 = 0xFFF04001#32 ∧
    cmdReadWord 0x00040000#32 0x7FFC#32 = 0x00007FFF#32 := by
  decide

/-! ## One step per instruction -/

/-- P1, the request: accepted with no transaction. -/
theorem test_step_read :
    goesTo (step (withInputs [.request (encodeReq .read 0x10#32 0#32)] []))
      (fun t => t.phase == .rdAhR && t.reqAddr == 0x10#32 && t.history == []) = true := by
  decide

/-- P4: an illegal address. -/
theorem test_step_write_illegal :
    goesTo (step (withInputs [.request (encodeReq .write 0x01000000#32 1#32)] []))
      (fun t => t.phase == .fault && t.history == [] &&
        t.outcome == some (.fault (.addressing 0x01000000#32))) = true := by
  decide

/-- P1, line 17. -/
theorem test_step_cmdRead :
    goesTo (step { atPhase .rdCmdW [] with tmp := 0xABE04004#32, reqAddr := 0x10#32 })
      (fun t => t.phase == .rdPoll && t.attempt == 0 &&
        t.history == [.wr 0x260#32 0xABE06004#32]) = true := by
  decide

/-- P1, line 4. -/
theorem test_step_cmdWren :
    goesTo (step { atPhase .wrEnW [] with tmp := 0xABE00000#32, reqAddr := 0x10#32 })
      (fun t => t.phase == .wrEnPoll && t.history == [.wr 0x260#32 0xABE0C000#32]) = true := by
  decide

/-- P1, line 10. -/
theorem test_step_cmdWrite :
    goesTo (step { atPhase .wrCmdW [] with tmp := 0xABE0C000#32, reqAddr := 0x10#32 })
      (fun t => t.phase == .wrPoll && t.history == [.wr 0x260#32 0xABE04004#32]) = true := by
  decide

/-- P5, line 11: the Read clears the byte the Write had set. -/
theorem test_step_ahRd :
    goesTo (step { atPhase .rdAhW [] with tmp := 0x00000001#32, reqAddr := 0x4000#32 })
      (fun t => t.phase == .rdCmdR && t.history == [.wr 0x26C#32 0x00000000#32]) = true := by
  decide

/-- P5, line 2. -/
theorem test_step_ahWr :
    goesTo (step { atPhase .wrAhW [] with tmp := 0x00000000#32, reqAddr := 0x4000#32 })
      (fun t => t.phase == .wrEnR && t.history == [.wr 0x26C#32 0x00000001#32]) = true := by
  decide

/-- P3, lines 1 and 3. -/
theorem test_step_unlock :
    goesTo (step (withInputs unlockSequence []))
      (fun t => t.phase == .idle && t.history == [.wr 0x260#32 0x0000A000#32]) = true ∧
    goesTo (step (withInputs (unlockSequence.drop 2) []))
      (fun t => t.phase == .idle && t.history == [.wr 0x260#32 0x00002000#32]) = true := by
  decide

/-- V-P4: every other bit set does not make busy, and bit 18 alone does. -/
theorem test_step_poll :
    goesTo (step (atPhase .rdPoll [0xFFFBFFFF#32])) (fun t => t.phase == .rdDataR) = true ∧
    goesTo (step (atPhase .rdPoll [0x00040000#32])) (fun t => t.phase == .rdSleep) = true := by
  decide

/-- V-P2 and V-P3: the 100th attempt still succeeds; busy, it ends in the timeout. -/
theorem test_step_last_attempt :
    goesTo (step { atPhase .wrPoll [0xFFFBFFFF#32] with attempt := 99 })
      (fun t => t.phase == .idle && t.attempt == 100 && t.outcome == some .ok) = true ∧
    goesTo (step { atPhase .wrSleep [] with attempt := 100 })
      (fun t => t.phase == .fault && t.outcome == some (.fault (.timeout .writeCommit)) &&
        t.history == [.sleep 100]) = true := by
  decide

/-- P6: the document's decodable table, and the labels of S5. -/
theorem test_decodeFile :
    decodeFile [0x5A#8, 0x00#8, 0x0C#8, 0x00#8, 0x05#8, 0x00#8, 0x03#8, 0x04#8, 0x01#8, 0x02#8,
      0x00#8, 0xE4#8, 0x11#8, 0x22#8, 0x33#8, 0x44#8] =
      .ok [{ header := 0x0005#16, value := 0x02010403#32 },
           { header := 0xE400#16, value := 0x44332211#32 }] := by
  decide

/-- P6 and S5: label, offset and value of the two records; the index from 0 is log entry 22. -/
theorem test_render :
    render [{ header := 0x0005#16, value := 0x02010403#32 },
            { header := 0xE400#16, value := 0x44332211#32 }] =
      [{ index := 0, port := .raw 0#6, reg := 0x014, value := 0x02010403#32 },
       { index := 1, port := .nt 0#1 true, reg := 0x000, value := 0x44332211#32 }] := by
  decide

/-- V-S1. -/
theorem test_roundup4 :
    [0, 1, 4, 6, 12, 13, 0xFFFC, 0xFFFD, 0xFFFF].map roundup4 =
      [0, 4, 4, 8, 12, 16, 0xFFFC, 0x10000, 0x10000] := by
  decide

/-- P5 in mode B: the write lands at word index 0x5000. -/
theorem test_refCtl_modeB :
    let c := { ctl 0 .b [] with r264 := 0x11223344#32, r26C := 1#32 }
    (c.write 0x260#32 0x00005000#32).mem.readWord (4 * 0x5000) = 0x11223344#32 := by
  decide

/-- A raw word with an unlock code and preserved bits is written to the fixture, one with a
reserved code is refused (93_implementation_defined.md U3). -/
theorem test_rawWrite_refCtl :
    goesTo (step (withCtl [.rawWrite 0x260#32 0x0020A000#32] (ctl 1 .a [])))
      (fun t => t.history == [.wr 0x260#32 0x0020A000#32]) = true ∧
    (match step (withCtl [.rawWrite 0x260#32 0x0020E000#32] (ctl 1 .a [])) with
      | .refused r => r == .reservedCommandWord
      | .next _ => false
      | .fault _ => false) = true := by
  decide

/-- R255: an unusable port, sink or source ends the client before any transaction. -/
theorem test_resourceError :
    ∀ s ∈ [{ withInputs [.request (encodeReq .read 0#32 0#32)] [] with portUsable := false },
           { withInputs [.rawWrite 0x262#32 1#32] [] with portUsable := false },
           { withInputs [.restore] [] with portUsable := false },
           { withInputs [.decodeLive] [] with portUsable := false },
           { withInputs [.dump] [] with sinkUsable := false },
           { withInputs [.restore] [] with sourceUsable := false },
           { withInputs [.restoreLoop] [] with sourceUsable := false },
           { withInputs [.decodeFile] [] with sourceUsable := false }],
      goesTo (step s) (fun t => t.history == [] && t.phase == .idle && t.client == .stopped &&
        t.report == some (.failed .resource)) = true := by
  decide

/-- R238 and P6: DecodeFile without a register port decodes the document's table, and reports the
wrong signature of S6 as its own error. -/
theorem test_decodeFile_without_port :
    goesTo (step { withInputs [.decodeFile] [] with
        portUsable := false,
        source := [0x5A#8, 0x00#8, 0x0C#8, 0x00#8, 0x05#8, 0x00#8, 0x03#8, 0x04#8, 0x01#8,
          0x02#8, 0x00#8, 0xE4#8, 0x11#8, 0x22#8, 0x33#8, 0x44#8] })
      (fun t => t.history == [] && t.client == .none && t.inputs == [] &&
        t.report == some (.decoded [{ header := 0x0005#16, value := 0x02010403#32 },
          { header := 0xE400#16, value := 0x44332211#32 }])) = true ∧
    goesTo (step { withInputs [.decodeFile] [] with
        portUsable := false, source := [0x59#8, 0x00#8, 0x0C#8, 0x00#8] })
      (fun t => t.history == [] && t.report == some (.failed (.format .wrongSignature))) = true := by
  decide

/-- What makes no transaction (42_busy_poll.md R166), a sleep or the wait for a request, needs no port. -/
theorem test_no_transaction_without_port :
    goesTo (step { withInputs [.pause 5] [] with portUsable := false })
      (fun t => t.history == [.sleep 5] && t.client == .none) = true ∧
    goesTo (step { withInputs [] [] with portUsable := false })
      (fun t => t.history == [] && t.client == .none && t.report == none) = true := by
  decide

/-- P3, line 1: Restore starts with the first unlock word; the rest of the sequence comes next. -/
theorem test_step_restore :
    goesTo (step (withInputs [.restore] []))
      (fun t => t.phase == .idle && t.history == [.wr 0x260#32 0x0000A000#32] &&
        t.inputs == unlockSequence.drop 1 ++ [.restoreLoop]) = true := by
  decide

/-! ## Witnesses: for each statement with hypotheses, a state and operands that meet them -/

theorem witness_EncodeOfDecode :
    decode (.cmd 0x00107FFF#32) = .ok (.cmdRead 0#11 1#1 0x1FFF#13) := by
  decide

theorem witness_ReservedCommandWordsRejected :
    (0x00001FFF#32).extractLsb' 13 3 = 0#3 ∧ (0x00008000#32).extractLsb' 13 3 = 4#3 ∧
    (0x0000FFFF#32).extractLsb' 13 3 = 7#3 ∧ (0x00016000#32).extractLsb' 16 4 ≠ 0#4 ∧
    (0x000F6000#32).extractLsb' 16 4 ≠ 0#4 := by
  decide

theorem witness_SplitterFields : legal 0x00FFFFFC#32 = true ∧ legal 0#32 = true := by
  decide

/-- The largest legal address, and the largest below 0x4000. -/
theorem witness_AddressHighBytes :
    legal 0x00FFFFFC#32 = true ∧ 0x00003FFF#32 < 0x4000#32 := by
  decide

theorem witness_IssuedCommandWords :
    cmdWrenWord 0xFFFFFFFF#32 ∈
      [cmdReadWord 0xFFFFFFFF#32 0x00FFFFFC#32, cmdWrenWord 0xFFFFFFFF#32,
        cmdWriteWord 0xFFFFFFFF#32 0x00FFFFFC#32] := by
  decide

/-- The two edges of the legal range. -/
theorem witness_RequestsComplete :
    State.reset.phase = .idle ∧ legal 0x00FFFFFC#32 = true ∧ legal 0x01000000#32 = false ∧
    legal 0x00000001#32 = false := by
  decide

theorem witness_Precondition :
    State.reset.phase = .idle ∧ legal 0x00FFFFFD#32 = false ∧
    Instr.write 0x00FFFFFD#32 7#32 ∈
      [Instr.read 0x00FFFFFD#32 7#32, Instr.write 0x00FFFFFD#32 7#32] := by
  decide

theorem witness_RequestFrame :
    (∃ t, exec (.read 0x00FFFFFC#32 7#32) State.reset = .next t ∧
      legal 0x00FFFFFC#32 = true) ∧
    ∃ t, exec (.write 0x01000000#32 7#32) State.reset = .next t :=
  ⟨⟨_, rfl, by decide⟩, ⟨_, rfl⟩⟩

/-- The first and the last phase of an operation. -/
theorem witness_RequestRefusedWhileBusy :
    ((atPhase .rdAhR []).phase ≠ .idle ∧ (atPhase .rdAhR []).phase ≠ .fault) ∧
    ((atPhase .wrSleep []).phase ≠ .idle ∧ (atPhase .wrSleep []).phase ≠ .fault) := by
  decide

theorem witness_CommandWordsComplete :
    (atPhase .rdCmdW []).phase = .rdCmdW ∧ (atPhase .wrEnW []).phase = .wrEnW ∧
    (atPhase .wrCmdW []).phase = .wrCmdW := by
  decide

theorem witness_AddressHighWordsComplete :
    (atPhase .rdAhW []).phase = .rdAhW ∧ (atPhase .wrAhW []).phase = .wrAhW := by
  decide

theorem witness_UnlockWordsComplete : State.reset.phase = .idle := by
  decide

/-- `IDLE` for the first clause; for each refusal a phase that is not the word's own. -/
theorem witness_RegisterWordsOutOfPhase :
    State.reset.phase = .idle ∧
    ((atPhase .rdAhR []).phase ≠ .idle ∧ (atPhase .rdAhR []).phase ≠ .fault ∧
      (atPhase .rdAhR []).phase ≠ .rdCmdW ∧ (atPhase .rdAhR []).phase ≠ .wrEnW ∧
      (atPhase .rdAhR []).phase ≠ .wrCmdW ∧ (atPhase .rdAhR []).phase ≠ .rdAhW ∧
      (atPhase .rdAhR []).phase ≠ .wrAhW) := by
  decide

/-- Each command word in its own phase and in `IDLE`, the write command against a controller. -/
theorem witness_CommandWordFrame :
    (∃ t, exec (.cmdRead 0#11 0#1 0#13) (atPhase .rdCmdW []) = .next t) ∧
    (∃ t, exec (.cmdWren 0#11) (atPhase .wrEnW []) = .next t) ∧
    (∃ t, exec (.cmdWrite 0#11 1#1 0x1FFF#13) State.reset = .next t) ∧
    ∃ t, exec (.cmdWrite 0#11 1#1 0x1FFF#13)
        { withCtl [] (ctl 1 .b []) with phase := .wrCmdW } = .next t ∧
      4 * (ctl 1 .b []).index (encodeCmd 0#11 1#1 2#3 0x1FFF#13) + 3 < 0x10000 ∧
      0xFFFB < 4 * (ctl 1 .b []).index (encodeCmd 0#11 1#1 2#3 0x1FFF#13) :=
  ⟨⟨_, rfl⟩, ⟨_, rfl⟩, ⟨_, rfl⟩, ⟨_, rfl, by decide, by decide⟩⟩

theorem witness_PlainWordFrame :
    (∃ t, exec (.ahRd 0#24 0#8) (atPhase .rdAhW []) = .next t) ∧
    (∃ t, exec (.ahWr 0#24 0xFF#8) (atPhase .wrAhW []) = .next t) ∧
    (∃ t, exec .unlock1 State.reset = .next t) ∧ ∃ t, exec .unlock2 State.reset = .next t :=
  ⟨⟨_, rfl⟩, ⟨_, rfl⟩, ⟨_, rfl⟩, ⟨_, rfl⟩⟩

/-- A request in `IDLE` and an issued word in an operation. -/
theorem witness_StepRunsDecoded :
    Presents (withInputs [.request (encodeReq .read 0x10#32 0#32)] []) .read 0x10#32 0#32 [] ∧
    Presents (withInputs [.request (encodeReq .write 0x10#32 9#32)] []) .write 0x10#32 9#32 [] ∧
    ((atPhase .wrEnW []).phase ≠ .idle ∧
      issuedPacket (atPhase .wrEnW []) = some (.cmd 0x0000C000#32)) ∧
    (fetch (atPhase .wrEnW []) = some (.cmd 0x0000C000#32, atPhase .wrEnW []) ∧
      decode (.cmd 0x0000C000#32) = .ok (.cmdWren 0#11)) := by
  refine ⟨⟨rfl, rfl, rfl, rfl⟩, ⟨rfl, rfl, rfl, rfl⟩, by decide, by decide⟩

theorem witness_PlacedInstructionRuns :
    (Instr.ahRd 0xFFFFFF#24 0#8).wf = true ∧ (Instr.read 3#32 0#32).wf = true := by
  decide

theorem witness_ReadAddressHighUpdate :
    (atPhase .rdAhR []).phase = .rdAhR ∧ (atPhase .rdAhW []).phase = .rdAhW ∧
    legal ({ atPhase .rdAhW [] with reqAddr := 0x00FFFFFC#32 } : State).reqAddr = true := by
  decide

theorem witness_ReadCommandIssue :
    (∃ t, step (atPhase .rdAhW []) = .next t ∧ t.phase = .rdCmdR) ∧
    (atPhase .rdCmdR []).phase = .rdCmdR ∧ (atPhase .rdCmdW []).phase = .rdCmdW := by
  refine ⟨?_, rfl, rfl⟩
  obtain ⟨t, h1, h2⟩ := goesTo_next (o := step (atPhase .rdAhW []))
    (f := fun t => t.phase == .rdCmdR) (by decide)
  exact ⟨t, h1, by simpa using h2⟩

theorem witness_WriteAddressHighUpdate :
    (atPhase .wrAhR []).phase = .wrAhR ∧ (atPhase .wrAhW []).phase = .wrAhW := by
  decide

theorem witness_WriteCommandIssues :
    (atPhase .wrEnR []).phase = .wrEnR ∧ (atPhase .wrEnW []).phase = .wrEnW ∧
    (atPhase .wrCmdR []).phase = .wrCmdR ∧ (atPhase .wrCmdW []).phase = .wrCmdW := by
  decide

theorem witness_WriteDataPhase :
    (atPhase .wrDataW []).phase = .wrDataW ∧
    ∃ t, step (atPhase .wrEnPoll [0xFFFBFFFF#32]) = .next t ∧ t.phase = .wrDataW := by
  refine ⟨rfl, ?_⟩
  obtain ⟨t, h1, h2⟩ := goesTo_next (o := step (atPhase .wrEnPoll [0xFFFBFFFF#32]))
    (f := fun t => t.phase == .wrDataW) (by decide)
  exact ⟨t, h1, by simpa using h2⟩

theorem witness_ReadDataPhase :
    (atPhase .rdDataR []).phase = .rdDataR ∧
    ∃ t, step (atPhase .rdPoll [0xFFFBFFFF#32]) = .next t ∧ t.phase = .rdDataR := by
  refine ⟨rfl, ?_⟩
  obtain ⟨t, h1, h2⟩ := goesTo_next (o := step (atPhase .rdPoll [0xFFFBFFFF#32]))
    (f := fun t => t.phase == .rdDataR) (by decide)
  exact ⟨t, h1, by simpa using h2⟩

theorem witness_PollAttempts :
    (atPhase .rdPoll []).phase = .rdPoll ∧ (atPhase .wrEnPoll []).phase = .wrEnPoll ∧
    (atPhase .wrPoll []).phase = .wrPoll := by
  decide

/-- Each sleep phase, at the 99th and the 100th attempt. -/
theorem witness_PollSleeps :
    ∀ x ∈ [(Phase.rdSleep, Phase.rdPoll, PollKind.read),
           (Phase.wrEnSleep, Phase.wrEnPoll, PollKind.writeEnable),
           (Phase.wrSleep, Phase.wrPoll, PollKind.writeCommit)],
      (atPhase x.1 []).phase = x.1 ∧
      ({ atPhase x.1 [] with attempt := 99 } : State).attempt < 100 ∧
      ({ atPhase x.1 [] with attempt := 100 } : State).attempt = 100 := by
  decide

/-- V-P2: ninety-nine busy polls, then clear; also none. -/
theorem witness_ReadSucceeds :
    (∃ s bs, Presents s .read 0x00FFFFFC#32 0#32 [] ∧ legal 0x00FFFFFC#32 = true ∧
      s.env = .oracle (1#32 :: 2#32 :: (bs ++ 0xFFFBFFFF#32 :: 7#32 :: [])) ∧
      bs.length < 100 ∧ bs.length = 99 ∧ (∀ b ∈ bs, busy b = true) ∧
      busy 0xFFFBFFFF#32 = false) ∧
    (∀ b ∈ ([] : List Word), busy b = true) :=
  ⟨⟨withInputs [.request (encodeReq .read 0x00FFFFFC#32 0#32)]
      (1#32 :: 2#32 :: (List.replicate 99 0x00040000#32 ++ 0xFFFBFFFF#32 :: 7#32 :: [])),
    List.replicate 99 0x00040000#32, ⟨rfl, rfl, rfl, rfl⟩, by decide, rfl, by simp, by simp,
    fun b hb => by rw [List.eq_of_mem_replicate hb]; decide, by decide⟩, by simp⟩

/-- P2: a hundred busy polls. -/
theorem witness_ReadTimesOut :
    ∃ s bs, Presents s .read 0x7FFC#32 0#32 [] ∧ legal 0x7FFC#32 = true ∧
      s.env = .oracle (0xFFFFFFFF#32 :: 0x00040000#32 :: (bs ++ [])) ∧ bs.length = 100 ∧
      ∀ b ∈ bs, busy b = true :=
  ⟨withInputs [.request (encodeReq .read 0x7FFC#32 0#32)]
      (0xFFFFFFFF#32 :: 0x00040000#32 :: (List.replicate 100 0x00047FFF#32 ++ [])),
    List.replicate 100 0x00047FFF#32, ⟨rfl, rfl, rfl, rfl⟩, by decide, rfl, by simp,
    fun b hb => by rw [List.eq_of_mem_replicate hb]; decide⟩

theorem witness_WriteSucceeds :
    ∃ s bs1 bs2, Presents s .write 0x00FFFFFC#32 9#32 [] ∧ legal 0x00FFFFFC#32 = true ∧
      s.env = .oracle (1#32 :: 2#32 :: (bs1 ++ 0#32 :: 3#32 :: (bs2 ++ 0xFFFBFFFF#32 :: []))) ∧
      bs1.length = 99 ∧ bs1.length < 100 ∧ (∀ b ∈ bs1, busy b = true) ∧ busy 0#32 = false ∧
      bs2.length = 0 ∧ bs2.length < 100 ∧ (∀ b ∈ bs2, busy b = true) ∧
      busy 0xFFFBFFFF#32 = false :=
  ⟨withInputs [.request (encodeReq .write 0x00FFFFFC#32 9#32)]
      (1#32 :: 2#32 :: (List.replicate 99 0x00040000#32 ++ 0#32 :: 3#32 ::
        ([] ++ 0xFFFBFFFF#32 :: []))),
    List.replicate 99 0x00040000#32, [], ⟨rfl, rfl, rfl, rfl⟩, by decide, rfl, by simp, by simp,
    fun b hb => by rw [List.eq_of_mem_replicate hb]; decide, by decide, rfl, by simp, by simp,
    by decide⟩

theorem witness_WriteEnableTimesOut :
    ∃ s bs, Presents s .write 0#32 9#32 [] ∧ legal 0#32 = true ∧
      s.env = .oracle (0#32 :: 0#32 :: (bs ++ [])) ∧ bs.length = 100 ∧
      ∀ b ∈ bs, busy b = true :=
  ⟨withInputs [.request (encodeReq .write 0#32 9#32)]
      (0#32 :: 0#32 :: (List.replicate 100 0x0004C000#32 ++ [])),
    List.replicate 100 0x0004C000#32, ⟨rfl, rfl, rfl, rfl⟩, by decide, rfl, by simp,
    fun b hb => by rw [List.eq_of_mem_replicate hb]; decide⟩

/-- P7: the write-enable poll is clear at once, a hundred busy polls after the write command. -/
theorem witness_WriteCommitTimesOut :
    ∃ s bs1 bs2, Presents s .write 8#32 0x55AA55AA#32 [] ∧ legal 8#32 = true ∧
      s.env = .oracle (0#32 :: 0#32 :: (bs1 ++ 0xC000#32 :: 0xC000#32 :: (bs2 ++ []))) ∧
      bs1.length < 100 ∧ (∀ b ∈ bs1, busy b = true) ∧ busy 0xC000#32 = false ∧
      bs2.length = 100 ∧ ∀ b ∈ bs2, busy b = true :=
  ⟨withInputs [.request (encodeReq .write 8#32 0x55AA55AA#32)]
      (0#32 :: 0#32 :: ([] ++ 0xC000#32 :: 0xC000#32 ::
        (List.replicate 100 0x00044002#32 ++ []))),
    [], List.replicate 100 0x00044002#32, ⟨rfl, rfl, rfl, rfl⟩, by decide, rfl, by simp,
    by simp, by decide, by simp, fun b hb => by rw [List.eq_of_mem_replicate hb]; decide⟩

/-- A legal and an illegal request, and both operations. -/
theorem witness_OperationsTerminate :
    Presents (withInputs [.request (encodeReq .read 3#32 0#32)] []) .read 3#32 0#32 [] ∧
    Presents (withInputs [.request (encodeReq .write 0x00FFFFFC#32 0#32)] []) .write
      0x00FFFFFC#32 0#32 [] :=
  ⟨⟨rfl, rfl, rfl, rfl⟩, ⟨rfl, rfl, rfl, rfl⟩⟩

/-- Two addresses 64 KiB apart. -/
theorem witness_ReadAddressesAlias :
    State.reset.phase = .idle ∧ State.reset.client = .none ∧ State.reset.portUsable = true ∧
    legal 0x00000010#32 = true ∧ legal 0x00010010#32 = true ∧
    (0x00000010#32).extractLsb' 2 14 = (0x00010010#32).extractLsb' 2 14 := by
  decide

/-- Two addresses 12 MiB apart. -/
theorem witness_WriteAddressesAlias :
    State.reset.phase = .idle ∧ State.reset.client = .none ∧ State.reset.portUsable = true ∧
    legal 0x00C0FFFC#32 = true ∧ legal 0x0000FFFC#32 = true ∧
    (0x00C0FFFC#32).extractLsb' 2 20 = (0x0000FFFC#32).extractLsb' 2 20 := by
  decide

theorem witness_LatchesDeadInIdle : (withInputs [.dump] []).phase = .idle := by
  decide

/-- The largest legal address, and the longest busy time that does not time out. -/
theorem witness_RoundTripModeA :
    Presents (withCtl [.request (encodeReq .write 0x00FFFFFC#32 9#32),
      .request (encodeReq .read 0x00FFFFFC#32 0#32)] (ctl 99 .a [(0, 0x5A#8)]))
      .write 0x00FFFFFC#32 9#32 (.request (encodeReq .read 0x00FFFFFC#32 0#32) :: []) ∧
    legal 0x00FFFFFC#32 = true ∧ (ctl 99 .a [(0, 0x5A#8)]).mode = .a ∧
    (ctl 99 .a [(0, 0x5A#8)]).stuck = false ∧ (ctl 99 .a [(0, 0x5A#8)]).polls < 100 ∧
    Memory.wf [(0, 0x5A#8)] :=
  ⟨⟨rfl, rfl, rfl, rfl⟩, by decide, rfl, rfl, by decide, by decide⟩

/-- The largest legal address whose Write leaves the address-high byte 0. -/
theorem witness_RoundTripModeB :
    Presents (withCtl [.request (encodeReq .write 0x00C03FFC#32 9#32),
      .request (encodeReq .read 0x00C03FFC#32 0#32)] (ctl 99 .b []))
      .write 0x00C03FFC#32 9#32 (.request (encodeReq .read 0x00C03FFC#32 0#32) :: []) ∧
    legal 0x00C03FFC#32 = true ∧ ahWrByte 0x00C03FFC#32 = 0#8 ∧ (ctl 99 .b []).mode = .b ∧
    (ctl 99 .b []).stuck = false ∧ (ctl 99 .b []).polls < 100 ∧ Memory.wf [] :=
  ⟨⟨rfl, rfl, rfl, rfl⟩, by decide, by decide, rfl, rfl, by decide, by decide⟩

/-- A step in `IDLE` and a step in an operation. -/
theorem witness_OneEventPerStep :
    (∃ t, step (withInputs [.pause 5] []) = .next t) ∧
    ∃ t, step (atPhase .wrDataW []) = .next t ∧ (atPhase .wrDataW []).phase ≠ .idle :=
  ⟨⟨_, rfl⟩, ⟨_, rfl, by decide⟩⟩

theorem witness_OperationUndisturbed :
    ∃ t, step (atPhase .wrSleep []) = .next t ∧ (atPhase .wrSleep []).phase ≠ .idle :=
  ⟨_, rfl, by decide⟩

/-- The last attempt of a Read, which still succeeds. -/
theorem witness_EngineInvKept :
    ∃ s t, EngineInv s ∧ s.attempt = 99 ∧ step s = .next t :=
  ⟨{ atPhase .rdPoll [0xFFFBFFFF#32] with attempt := 99 }, _,
    ⟨by decide, by decide, by decide, by simp [atPhase, State.reset], by decide, by decide⟩,
    rfl, rfl⟩

/-- Restore between its Write and its Read, and Dump while its Read runs. -/
theorem witness_ClientInvKept :
    (∃ s t, ClientInv s ∧ s.client.awaitsWrite = true ∧ step s = .next t) ∧
    ∃ s t, ClientInv s ∧ s.client.awaitsWord = true ∧ step s = .next t :=
  ⟨⟨{ State.reset with client := .restoreWritten 4#32 7#32 1, outcome := some .ok }, _,
      ⟨by simp [Client.awaitsWord], fun _ => .inr (.inr ⟨rfl, rfl⟩)⟩, rfl, rfl⟩,
    ⟨{ atPhase .rdCmdR [0#32] with client := .dumpHead }, _,
      ⟨fun _ => .inl rfl, by simp [Client.awaitsWrite]⟩, rfl, rfl⟩⟩

/-- A write command to a controller whose memory lists the word it replaces. -/
theorem witness_MemoryFormKept :
    ∃ s t, MemWf s ∧ step s = .next t ∧
      s.env = .refCtl (ctl 0 .a [(0, 0x5A#8), (5, 0x01#8), (0xFFFFFF, 0x02#8)]) :=
  ⟨{ withCtl [] (ctl 0 .a [(0, 0x5A#8), (5, 0x01#8), (0xFFFFFF, 0x02#8)]) with
      phase := .wrCmdW, reqAddr := 4#32 }, _,
    (by decide : Memory.wf [(0, 0x5A#8), (5, 0x01#8), (0xFFFFFF, 0x02#8)]), rfl, rfl⟩

theorem witness_FaultIsTerminal : (atPhase .fault []).phase = .fault := by
  decide

theorem witness_ResponseAlwaysThere :
    ClientInv { State.reset with client := .restoreWritten 4#32 7#32 1, outcome := some .ok } :=
  ⟨by simp [Client.awaitsWord], fun _ => .inr (.inr ⟨rfl, rfl⟩)⟩

theorem witness_UnlockSequenceRuns :
    (withInputs (unlockSequence ++ [.dump]) []).phase = .idle ∧
    (withInputs (unlockSequence ++ [.dump]) []).client = .none ∧
    (withInputs (unlockSequence ++ [.dump]) []).portUsable = true ∧
    (withInputs (unlockSequence ++ [.dump]) []).inputs = unlockSequence ++ [.dump] := by
  decide

/-- The last offset, the first beyond it, and a misaligned one; without a port, each kind of input
that makes transactions. -/
theorem witness_RawWrites :
    (withInputs [.rawWrite 0x3FFFC#32 1#32] []).inputs = .rawWrite 0x3FFFC#32 1#32 :: [] ∧
    ((0x3FFFC#32).toNat % 4 = 0 ∧ (0x3FFFC#32).toNat < 0x40000 ∧
      (withInputs [.rawWrite 0x3FFFC#32 1#32] []).env = .oracle []) ∧
    (withInputs [.rawWrite 0x40000#32 1#32] []).inputs = .rawWrite 0x40000#32 1#32 :: [] ∧
    0x40000 ≤ (0x40000#32).toNat ∧ (0x262#32).toNat % 4 ≠ 0 ∧
    (withInputs [.rawWrite 0x262#32 1#32] []).phase = .idle ∧
    (withInputs [.rawWrite 0x262#32 1#32] []).client = .none ∧
    (withInputs [.rawWrite 0x262#32 1#32] []).portUsable = true ∧
    ∀ x ∈ [Input.rawWrite 0x260#32 0#32, Input.request (encodeReq .read 0#32 0#32), Input.dump,
        Input.restore, Input.restoreLoop, Input.decodeLive],
      ({ withInputs [x] [] with portUsable := false } : State).phase = .idle ∧
      ({ withInputs [x] [] with portUsable := false } : State).client = .none ∧
      ({ withInputs [x] [] with portUsable := false } : State).portUsable = false ∧
      ({ withInputs [x] [] with portUsable := false } : State).inputs = x :: [] := by
  decide

/-- P8: the two values differ in bit 8. -/
theorem witness_RestoreVerifies :
    (∃ s : State, s.phase = .idle ∧ s.client = .restoreWritten 4#32 0x11111111#32 1 ∧
      s.outcome = some .ok) ∧
    ∃ s : State, s.phase = .idle ∧ s.client = .restoreCheck 4#32 0x11111111#32 1 ∧
      s.outcome = some (.okValue 0x11111011#32) ∧ 0x11111011#32 ≠ 0x11111111#32 :=
  ⟨⟨{ State.reset with client := .restoreWritten 4#32 0x11111111#32 1, outcome := some .ok },
      rfl, rfl, rfl⟩,
    ⟨{ State.reset with client := .restoreCheck 4#32 0x11111111#32 1,
                        outcome := some (.okValue 0x11111011#32) }, rfl, rfl, rfl, by decide⟩⟩

/-- One word and three bytes more; a source not acquired. -/
theorem witness_RestoreWritesSource :
    (∃ (s : State) (c : RefCtl), s.phase = .idle ∧ s.client = .none ∧ s.portUsable = true ∧
      s.sourceUsable = true ∧ s.inputs = .restore :: [] ∧
      s.source = [0x0008005A#32].flatMap wordBytes ++ [1#8, 2#8, 3#8] ∧
      [1#8, 2#8, 3#8].length < 4 ∧ [0x0008005A#32].length ≤ 0x4000 ∧ s.env = .refCtl c ∧
      c.mode = .a ∧ c.stuck = false ∧ c.polls < 100 ∧ c.mem.wf) ∧
    ∀ x ∈ [Input.restore, Input.restoreLoop, Input.decodeFile],
      ∃ s : State, s.phase = .idle ∧ s.client = .none ∧ s.sourceUsable = false ∧
        s.inputs = x :: [] :=
  ⟨⟨{ withCtl [.restore] (ctl 99 .a []) with
      source := [0x0008005A#32].flatMap wordBytes ++ [1#8, 2#8, 3#8] }, ctl 99 .a [],
    rfl, rfl, rfl, rfl, rfl, rfl, by decide, by decide, rfl, rfl, rfl, by decide, by decide⟩,
   fun x _ => ⟨{ withInputs [x] [] with sourceUsable := false }, rfl, rfl, rfl, rfl⟩⟩

/-- V-S2 with `n = 12`, the largest `n` allowed, and V-S3's wrong signature; a sink not
acquired. -/
theorem witness_DumpCopiesImage :
    (withCtl [.dump] (ctl 99 .a [(0, 0x5A#8), (1, 0#8), (2, 12#8), (3, 0#8)])).phase = .idle ∧
    (withCtl [.dump] (ctl 99 .a [])).client = .none ∧
    (withCtl [.dump] (ctl 99 .a [])).portUsable = true ∧
    (withCtl [.dump] (ctl 99 .a [])).sinkUsable = true ∧
    ({ withInputs [.dump] [] with sinkUsable := false } : State).inputs = .dump :: [] ∧
    (withCtl [.dump] (ctl 99 .a [])).inputs = .dump :: [] ∧ (ctl 99 .a []).mode = .a ∧
    (ctl 99 .a []).stuck = false ∧ (ctl 99 .a []).polls < 100 ∧
    signatureOk (Memory.readWord [(0, 0x5A#8), (1, 0#8), (2, 12#8), (3, 0#8)] 0) = true ∧
    tableLength (Memory.readWord [(0, 0x5A#8), (1, 0#8), (2, 12#8), (3, 0#8)] 0) = 12 ∧
    signatureOk (Memory.readWord [(0, 0x5A#8), (1, 0#8), (2, 0xFC#8)] 0) = true ∧
    tableLength (Memory.readWord [(0, 0x5A#8), (1, 0#8), (2, 0xFC#8)] 0) = 0xFFFC ∧
    signatureOk (Memory.readWord [(0, 0x59#8), (1, 0#8), (2, 12#8), (3, 0#8)] 0) = false := by
  decide

theorem witness_RecordsOfTable :
    (decodeRecords [0x05#8, 0x00#8, 0x03#8, 0x04#8, 0x01#8, 0x02#8, 0x00#8])[0]? =
      some { header := 0x0005#16, value := 0x02010403#32 } := by
  decide

/-- S6 and S7, and a table of exactly the declared length; DecodeFile without a port, on a good
image and on a bad one. -/
theorem witness_ImageHeader :
    signatureOk 0x000C0059#32 = false ∧
    (signatureOk 0x0004005A#32 = true ∧ [1#8, 2#8, 3#8].length < tableLength 0x0004005A#32) ∧
    tableLength 0x0004005A#32 ≤ [1#8, 2#8, 3#8, 4#8].length ∧ 13 ≤ 4 * 4 ∧
    (∃ s : State, s.phase = .idle ∧ s.client = .none ∧ s.portUsable = false ∧
      s.sourceUsable = true ∧ s.inputs = .decodeFile :: [] ∧ decodeFile s.source = .ok []) ∧
    ∃ s : State, s.phase = .idle ∧ s.client = .none ∧ s.portUsable = false ∧
      s.sourceUsable = true ∧ s.inputs = .decodeFile :: [] ∧
      decodeFile s.source = .error .wrongSignature :=
  ⟨by decide, by decide, by decide, by decide,
    ⟨{ withInputs [.decodeFile] [] with
        portUsable := false, source := [0x5A#8, 0#8, 0#8, 0#8] },
      rfl, rfl, rfl, rfl, rfl, by decide⟩,
    ⟨{ withInputs [.decodeFile] [] with portUsable := false }, rfl, rfl, rfl, rfl, rfl, by decide⟩⟩

end Sys2Proof.Tests
end

/-! ## Decoding what was encoded (30_encoding.md section 3) -/

namespace Sys2Proof

open Sys2Proof.Machine

/-- The fields of a request packet are those it was built from (30_encoding.md R91). -/
theorem encodeReq_fields (op : Op) (addr data : Word) :
    (encodeReq op addr data).getLsbD 64 = (op == .write) ∧
    (encodeReq op addr data).extractLsb' 32 32 = addr ∧
    (encodeReq op addr data).extractLsb' 0 32 = data := by
  refine ⟨?_, ?_, ?_⟩
  · simp only [encodeReq, BitVec.getLsbD_append]
    cases op <;> rfl
  · exact (BitVec.extractLsb'_append_eq_of_le (by decide)).trans BitVec.extractLsb'_append_eq_right
  · exact BitVec.extractLsb'_append_eq_right

theorem decodeReq_encodeReq (op : Op) (addr data : Word) :
    decodeReq (encodeReq op addr data) =
      match op with
      | .read => .read addr data
      | .write => .write addr data := by
  obtain ⟨hop, haddr, hdata⟩ := encodeReq_fields op addr data
  rw [decodeReq, hop, haddr, hdata]
  cases op <;> rfl

/-- The unlock words have codes 5 and 1, so a command word with any other code is neither. -/
theorem encodeCmd_ne_unlock (keep : BitVec 11) (b13 : BitVec 1) (code : BitVec 3)
    (lo : BitVec 13) (h5 : code ≠ 5#3) (h1 : code ≠ 1#3) :
    encodeCmd keep b13 code lo ≠ 0x0000A000#32 ∧
    encodeCmd keep b13 code lo ≠ 0x00002000#32 := by
  obtain ⟨-, -, -, hcode, -⟩ := encodeCmd_fields keep b13 code lo
  refine ⟨fun h => h5 ?_, fun h => h1 ?_⟩
  · rw [← hcode, h]
    decide
  · rw [← hcode, h]
    decide

/-- The decoder on a word of format CMD with any code but the unlock words'. -/
theorem decodeCmd_encodeCmd (keep : BitVec 11) (b13 : BitVec 1) (code : BitVec 3)
    (lo : BitVec 13) (h5 : code ≠ 5#3) (h1 : code ≠ 1#3) :
    decodeCmd (encodeCmd keep b13 code lo) =
      if code = 3#3 then .ok (.cmdRead keep b13 lo)
      else if code = 2#3 then .ok (.cmdWrite keep b13 lo)
      else if code = 6#3 then
        if b13 = 0#1 ∧ lo = 0#13 then .ok (.cmdWren keep) else .error .writeEnableFields
      else .error (.reservedCode code) := by
  obtain ⟨hne1, hne2⟩ := encodeCmd_ne_unlock keep b13 code lo h5 h1
  obtain ⟨hkeep, hb13, hzero, hcode, hlo⟩ := encodeCmd_fields keep b13 code lo
  rw [decodeCmd_eq, if_neg hne1, if_neg hne2, hkeep, hb13, hzero, hcode, hlo]
  simp only [ne_eq, not_true_eq_false, if_false]

theorem decodeAh_encodeAh (op : Op) (keep : BitVec 24) (byte : Byte) :
    decodeAh op (encodeAh keep byte) =
      match op with
      | .read => .ahRd keep byte
      | .write => .ahWr keep byte := by
  obtain ⟨hkeep, hbyte⟩ := encodeAh_fields keep byte
  cases op with
  | read => exact congrArg₂ Instr.ahRd hkeep hbyte
  | write => exact congrArg₂ Instr.ahWr hkeep hbyte

/-- The decoder gives back every encoded instruction. -/
theorem decode_encode (i : Instr) : decode (encode i) = .ok i := by
  cases i with
  | read addr data => exact congrArg Except.ok (decodeReq_encodeReq .read addr data)
  | write addr data => exact congrArg Except.ok (decodeReq_encodeReq .write addr data)
  | cmdRead keep b13 lo => exact decodeCmd_encodeCmd keep b13 3#3 lo (by decide) (by decide)
  | cmdWren keep => exact decodeCmd_encodeCmd keep 0#1 6#3 0#13 (by decide) (by decide)
  | cmdWrite keep b13 lo => exact decodeCmd_encodeCmd keep b13 2#3 lo (by decide) (by decide)
  | ahRd keep byte => exact congrArg Except.ok (decodeAh_encodeAh .read keep byte)
  | ahWr keep byte => exact congrArg Except.ok (decodeAh_encodeAh .write keep byte)
  | unlock1 => rfl
  | unlock2 => rfl

end Sys2Proof

/-! ## The fetch of a step and when an instruction answers a next state -/

namespace Sys2Proof.Machine

theorem fetch_of_present {s t : State} {p : Packet} (hp : s.phase = .idle)
    (hm : clientMove s = .present p t) : fetch s = some (p, t) := by
  simp only [fetch, hp, hm, if_true]

theorem fetch_of_issuedPacket {s : State} {p : Packet} (hp : s.phase ≠ .idle)
    (hi : issuedPacket s = some p) : fetch s = some (p, s) := by
  simp only [fetch, if_neg hp, hi]

/-- A step that fetches the encoding of an instruction is `exec` of that instruction. -/
theorem step_of_fetch_encode {s t : State} {i : Instr} (h : fetch s = some (encode i, t)) :
    step s = exec i t := by
  simp only [step, h, decode_encode]

/-- A request at the head of the stream is fetched, and is off the stream when it runs. -/
theorem fetch_request {s : State} {bits : BitVec 65} {rest : List Input} (hp : s.phase = .idle)
    (hc : s.client = .none) (hu : s.portUsable = true) (hi : s.inputs = .request bits :: rest) :
    fetch s = some (.req bits, { s with inputs := rest }) :=
  fetch_of_present hp (clientMove_ready hc hi hu)

/-- A raw command word the decoder knows is presented as that instruction. -/
theorem rawWrite_command {s : State} {w : Word} {i : Instr} (hd : decodeCmd w = .ok i) :
    s.rawWrite Config.offCmd w = .present (.cmd w) s := by
  have hoff : offsetOk Config.offCmd = true := by decide
  simp only [State.rawWrite, hoff, hd, if_true]

/-- A raw command word at the head of the stream is fetched, and is off the stream when it runs. -/
theorem fetch_rawCommand {s : State} {w : Word} {i : Instr} {rest : List Input}
    (hp : s.phase = .idle) (hc : s.client = .none) (hu : s.portUsable = true)
    (hi : s.inputs = .rawWrite Config.offCmd w :: rest) (hd : decodeCmd w = .ok i) :
    fetch s = some (.cmd w, { s with inputs := rest }) :=
  fetch_of_present hp ((clientMove_ready hc hi hu).trans (rawWrite_command hd))

/-- A register word in the phase that issues it is written and the engine goes on. -/
theorem issueWord_own {s : State} {own : Phase} {after : State → State} {off w : Word}
    (hp : s.phase = own) : s.issueWord own after off w = .next (after (s.writeReg off w)) :=
  if_pos hp

/-- A request presented in `IDLE` completes, be its address legal or not. -/
theorem accept_idle {s : State} {op : Op} {addr data : Word} (hp : s.phase = .idle) :
    ∃ u, s.accept op addr data = .next u :=
  ⟨_, if_pos hp⟩

theorem rawCommand_idle {s : State} {w : Word} (hp : s.phase = .idle) :
    s.rawCommand w = .next (s.writeReg Config.offCmd w) :=
  if_pos hp

/-! ## Placing (log entry 12): the latches carry exactly the fields of the word -/

@[simp] theorem keptCommand_keep (keep : BitVec 11) :
    (keptCommand keep).extractLsb' 21 11 = keep :=
  (encodeCmd_fields keep 0#1 0#3 0#13).1

@[simp] theorem keptAddressHigh_keep (keep : BitVec 24) :
    (keptAddressHigh keep).extractLsb' 8 24 = keep :=
  (encodeAh_fields keep 0#8).1

@[simp] theorem placedAddr_b13 (b13 : BitVec 1) (lo : BitVec 13) :
    (placedAddr b13 lo).extractLsb' 15 1 = b13 := by
  rw [placedAddr_eq, BitVec.extractLsb'_append_eq_of_le (by decide),
    BitVec.extractLsb'_append_eq_of_le (by decide)]
  exact BitVec.extractLsb'_append_eq_right

@[simp] theorem placedAddr_lo (b13 : BitVec 1) (lo : BitVec 13) :
    (placedAddr b13 lo).extractLsb' 2 13 = lo := by
  rw [placedAddr_eq, BitVec.extractLsb'_append_eq_of_le (by decide)]
  exact BitVec.extractLsb'_append_eq_right

@[simp] theorem ahRdByte_shiftLeft (byte : Byte) :
    ahRdByte (byte.setWidth 32 <<< Config.ahRdShift) = byte := by
  refine BitVec.eq_of_getLsbD_eq fun i hi => ?_
  interval_cases i <;> simp [ahRdByte, Config.ahRdShift, Config.ahByteWidth]

@[simp] theorem ahWrByte_shiftLeft (byte : Byte) :
    ahWrByte (byte.setWidth 32 <<< Config.ahWrShift) = byte := by
  refine BitVec.eq_of_getLsbD_eq fun i hi => ?_
  interval_cases i <;> simp [ahWrByte, Config.ahWrShift, Config.ahByteWidth]

/-- The word the engine forms from the placed latches is the encoded instruction. -/
theorem cmdReadWord_placed (keep : BitVec 11) (b13 : BitVec 1) (lo : BitVec 13) :
    cmdReadWord (keptCommand keep) (placedAddr b13 lo) = encodeCmd keep b13 Config.codeRead lo := by
  rw [cmdReadWord_eq, keptCommand_keep, placedAddr_b13, placedAddr_lo]

theorem cmdWriteWord_placed (keep : BitVec 11) (b13 : BitVec 1) (lo : BitVec 13) :
    cmdWriteWord (keptCommand keep) (placedAddr b13 lo) =
      encodeCmd keep b13 Config.codeWrite lo := by
  rw [cmdWriteWord_eq, keptCommand_keep, placedAddr_b13, placedAddr_lo]

theorem cmdWrenWord_placed (keep : BitVec 11) :
    cmdWrenWord (keptCommand keep) = encodeCmd keep 0#1 Config.codeWren 0#13 := by
  rw [cmdWrenWord_eq, keptCommand_keep]

theorem ahWord_placed_read (keep : BitVec 24) (byte : Byte) :
    ahWord (keptAddressHigh keep) (ahRdByte (byte.setWidth 32 <<< Config.ahRdShift)) =
      encodeAh keep byte := by
  rw [ahWord_eq, keptAddressHigh_keep, ahRdByte_shiftLeft]

theorem ahWord_placed_write (keep : BitVec 24) (byte : Byte) :
    ahWord (keptAddressHigh keep) (ahWrByte (byte.setWidth 32 <<< Config.ahWrShift)) =
      encodeAh keep byte := by
  rw [ahWord_eq, keptAddressHigh_keep, ahWrByte_shiftLeft]

/-- The state in which a placed instruction runs: an instruction of the client's stream has been
taken off it, a word of the engine's own runs in the placed state itself. -/
def State.placedRun (s : State) (i : Instr) : State :=
  { s.place i with inputs := s.inputs }

/-- A word of the engine's own is placed without touching the stream: it is fetched in its phase
once the engine forms it from the latches. -/
theorem fetch_place_of_issued {s : State} {i : Instr} (hp : (s.place i).phase ≠ .idle)
    (hin : s.place i = s.placedRun i) (hi : issuedPacket (s.place i) = some (encode i)) :
    fetch (s.place i) = some (encode i, s.placedRun i) :=
  hin ▸ fetch_of_issuedPacket hp hi

/-- A placed instruction is what the next step fetches. -/
theorem fetch_place (s : State) (i : Instr) :
    fetch (s.place i) = some (encode i, s.placedRun i) := by
  cases i with
  | read addr data => exact fetch_request rfl rfl rfl rfl
  | write addr data => exact fetch_request rfl rfl rfl rfl
  | cmdRead keep b13 lo =>
    exact fetch_place_of_issued nofun rfl
      (congrArg (some ∘ Packet.cmd) (cmdReadWord_placed keep b13 lo))
  | cmdWren keep =>
    exact fetch_place_of_issued nofun rfl
      (congrArg (some ∘ Packet.cmd) (cmdWrenWord_placed keep))
  | cmdWrite keep b13 lo =>
    exact fetch_place_of_issued nofun rfl
      (congrArg (some ∘ Packet.cmd) (cmdWriteWord_placed keep b13 lo))
  | ahRd keep byte =>
    exact fetch_place_of_issued nofun rfl
      (congrArg (some ∘ Packet.ah .read) (ahWord_placed_read keep byte))
  | ahWr keep byte =>
    exact fetch_place_of_issued nofun rfl
      (congrArg (some ∘ Packet.ah .write) (ahWord_placed_write keep byte))
  | unlock1 => exact fetch_rawCommand rfl rfl rfl rfl (decode_encode .unlock1)
  | unlock2 => exact fetch_rawCommand rfl rfl rfl rfl (decode_encode .unlock2)

/-- The phase in which an instruction runs: `IDLE` for what the client presents, the issuing phase
for a word of the engine's own (10_state.md R26). -/
def runPhase (i : Instr) : Phase :=
  match i with
  | .read _ _ => .idle
  | .write _ _ => .idle
  | .cmdRead _ _ _ => .rdCmdW
  | .cmdWren _ => .wrEnW
  | .cmdWrite _ _ _ => .wrCmdW
  | .ahRd _ _ => .rdAhW
  | .ahWr _ _ => .wrAhW
  | .unlock1 => .idle
  | .unlock2 => .idle

/-- An instruction completes in its phase, whatever the rest of the state. -/
theorem exec_of_runPhase {s : State} {i : Instr} (h : s.phase = runPhase i) :
    ∃ u, exec i s = .next u := by
  cases i with
  | read addr data => exact accept_idle h
  | write addr data => exact accept_idle h
  | cmdRead keep b13 lo => exact ⟨_, issueWord_own h⟩
  | cmdWren keep => exact ⟨_, issueWord_own h⟩
  | cmdWrite keep b13 lo => exact ⟨_, issueWord_own h⟩
  | ahRd keep byte => exact ⟨_, issueWord_own h⟩
  | ahWr keep byte => exact ⟨_, issueWord_own h⟩
  | unlock1 => exact ⟨_, rawCommand_idle h⟩
  | unlock2 => exact ⟨_, rawCommand_idle h⟩

@[simp] theorem placedRun_phase (s : State) (i : Instr) : (s.placedRun i).phase = runPhase i := by
  cases i <;> rfl

/-- Settles O23: the fetch of a placed instruction is its encoding, which decodes to it. The
argument needs no well-formedness: AH.RD is placed with whatever low byte it has. -/
theorem placedInstructionRuns : Obligations.PlacedInstructionRuns := by
  intro s i _
  obtain ⟨u, hu⟩ := exec_of_runPhase (placedRun_phase s i)
  have hfetch := fetch_place s i
  exact ⟨s.placedRun i, u, hfetch, rfl, step_of_fetch_encode hfetch, hu⟩

end Sys2Proof.Machine

/-! ## The client reads no latch and writes its own fields only (44_client_sequences.md R210) -/

namespace Sys2Proof.Machine

/-- The contents of the latches that hold no value between operations (10_state.md R20 to R25):
all but `OUTCOME`. -/
structure Latches where
  reqOp : Op
  reqAddr : Word
  reqData : Word
  tmp : Word
  result : Word
  attempt : Nat

/-- The latches of a state. -/
def State.latches (s : State) : Latches :=
  ⟨s.reqOp, s.reqAddr, s.reqData, s.tmp, s.result, s.attempt⟩

/-- The state with other values in those latches. -/
def State.withLatches (s : State) (l : Latches) : State :=
  { s with reqOp := l.reqOp, reqAddr := l.reqAddr, reqData := l.reqData, tmp := l.tmp,
           result := l.result, attempt := l.attempt }

/-- The state `s` with the client's own fields as `u` has them. -/
def State.withClientOf (s u : State) : State :=
  { s with inputs := u.inputs, client := u.client, sink := u.sink, source := u.source,
           report := u.report }

/-- The same move in another state. -/
def ClientMove.map (f : State → State) (m : ClientMove) : ClientMove :=
  match m with
  | .present p t => .present p (f t)
  | .portWrite off w t => .portWrite off w (f t)
  | .pause us t => .pause us (f t)
  | .quiet t => .quiet (f t)
  | .stop fault => .stop fault
  | .refuse r => .refuse r

/-- A move from `s` as a change of the client's own fields of `s`, with the latches `l`. -/
def ClientMove.over (m : ClientMove) (s : State) (l : Latches) : ClientMove :=
  m.map fun u => (s.withClientOf u).withLatches l

section ClientReads

/-! What the client reads is the same whatever the latches hold. -/

variable (s : State) (l : Latches)

@[simp] theorem withLatches_inputs : (s.withLatches l).inputs = s.inputs := rfl
@[simp] theorem withLatches_client : (s.withLatches l).client = s.client := rfl
@[simp] theorem withLatches_source : (s.withLatches l).source = s.source := rfl
@[simp] theorem withLatches_wordResponse : (s.withLatches l).wordResponse = s.wordResponse := rfl

@[simp] theorem withLatches_ready (x : Input) : (s.withLatches l).ready x = s.ready x := by
  cases x <;> rfl

end ClientReads

section ClientMoves

/-! What the client does is the same whatever the latches hold, and it writes its own fields
only. -/

variable (s : State) (l : Latches)

theorem over_ite {p : Prop} [Decidable p] {m m' k k' : ClientMove} (hm : m' = m.over s l)
    (hk : k' = k.over s l) : (if p then m' else k') = (if p then m else k).over s l := by
  split
  · exact hm
  · exact hk

theorem dumpNext_withLatches (a last : Nat) :
    (s.withLatches l).dumpNext a last = (s.dumpNext a last).over s l :=
  over_ite s l rfl rfl

theorem restoreNext_withLatches (addr : Word) (count : Nat) :
    (s.withLatches l).restoreNext addr count = (s.restoreNext addr count).over s l := by
  simp only [State.restoreNext, withLatches_source]
  split <;> rfl

theorem restoreVerify_withLatches (addr w : Word) (count : Nat) (r : Word) :
    (s.withLatches l).restoreVerify addr w count r = (s.restoreVerify addr w count r).over s l :=
  over_ite s l (restoreNext_withLatches s l _ _) rfl

theorem liveNext_withLatches (a last n : Nat) (buf : List Byte) :
    (s.withLatches l).liveNext a last n buf = (s.liveNext a last n buf).over s l :=
  over_ite s l rfl rfl

theorem liveStart_withLatches (w0 : Word) :
    (s.withLatches l).liveStart w0 = (s.liveStart w0).over s l :=
  over_ite s l (liveNext_withLatches s l _ _ _ _) rfl

theorem rawWrite_withLatches (off w : Word) :
    (s.withLatches l).rawWrite off w = (s.rawWrite off w).over s l := by
  refine over_ite s l (over_ite s l ?_ rfl) rfl
  cases decodeCmd w with
  | ok i => rfl
  | error e => exact over_ite s l rfl rfl

theorem fileDecode_withLatches : (s.withLatches l).fileDecode = s.fileDecode.over s l := by
  simp only [State.fileDecode, withLatches_source]
  split <;> rfl

theorem start_withLatches (x : Input) : (s.withLatches l).start x = (s.start x).over s l := by
  cases x with
  | rawWrite off w => exact rawWrite_withLatches s l off w
  | restore =>
    exact rawWrite_withLatches { s with inputs := restoreSequence.tail ++ s.inputs } l
      Config.offCmd Config.unlockWord1
  | restoreLoop => exact restoreNext_withLatches s l _ _
  | decodeFile => exact fileDecode_withLatches s l
  | request bits => rfl
  | pause us => rfl
  | dump => rfl
  | decodeLive => rfl

theorem nextInput_withLatches : (s.withLatches l).nextInput = s.nextInput.over s l := by
  simp only [State.nextInput, withLatches_inputs]
  cases s.inputs with
  | nil => rfl
  | cons x rest =>
    simp only [withLatches_ready]
    cases s.ready x with
    | true => exact start_withLatches { s with inputs := rest } l x
    | false => rfl

theorem withWord_withLatches {k k' : Word → ClientMove} (h : ∀ v, k' v = (k v).over s l) :
    (s.withLatches l).withWord k' = (s.withWord k).over s l := by
  simp only [State.withWord, withLatches_wordResponse]
  cases s.wordResponse with
  | some v => exact h v
  | none => rfl

theorem clientMove_withLatches : clientMove (s.withLatches l) = (clientMove s).over s l := by
  simp only [clientMove, withLatches_client]
  cases s.client with
  | stopped => rfl
  | none => exact nextInput_withLatches s l
  | dumpHead => exact withWord_withLatches s l fun v => dumpNext_withLatches (s.emit v) l _ _
  | dumpWord a last =>
    exact withWord_withLatches s l fun v => dumpNext_withLatches (s.emit v) l _ _
  | restoreWritten addr w count => exact over_ite s l rfl rfl
  | restoreCheck addr w count =>
    exact withWord_withLatches s l fun v => restoreVerify_withLatches s l _ _ _ v
  | liveHead => exact withWord_withLatches s l fun v => liveStart_withLatches s l v
  | liveWord a last n buf =>
    exact withWord_withLatches s l fun v => liveNext_withLatches s l _ _ _ _

end ClientMoves

/-- The client writes its own fields only. -/
theorem clientMove_map (s : State) : (clientMove s).map s.withClientOf = clientMove s :=
  (clientMove_withLatches s s.latches).symm

end Sys2Proof.Machine

/-! ## What a step does, by its phase (10_state.md section 3) -/

namespace Sys2Proof.Machine

/-! Steps in `IDLE`. -/

/-- What becomes of a client's move: a presented word is decoded and run, any other move is the
whole step. -/
def ClientMove.run (m : ClientMove) : Host.Outcome State Fault Refusal :=
  match m with
  | .present p u =>
    match decode p with
    | .ok i => exec i u
    | .error e => .refused (.undecodable e)
  | .portWrite off w u => .next (u.writeReg off w)
  | .pause us u => .next (u.sleepUs us)
  | .quiet u => .next u
  | .stop fault => .fault fault
  | .refuse r => .refused r

theorem step_idle {s : State} (hp : s.phase = .idle) : step s = (clientMove s).run := by
  simp only [step, fetch, microStep, quietClientStep, hp, if_true]
  cases clientMove s <;> rfl

/-- What a step in `IDLE` can do in the state the client's move has made: accept or reject a
request (43_operations.md R181), one write, one sleep, or nothing. -/
inductive IdleStep (s : State) : State → Prop where
  | quiet : IdleStep s s
  | pause (us : Nat) : IdleStep s (s.sleepUs us)
  | write (off w : Word) : IdleStep s (s.writeReg off w)
  | accept (op : Op) (addr data : Word) (hl : legal addr = true) :
      IdleStep s { s with reqOp := op, reqAddr := addr, reqData := data, phase := firstPhase op }
  | reject (op : Op) (addr data : Word) :
      IdleStep s (State.raise { s with reqOp := op, reqAddr := addr, reqData := data }
        (.addressing addr))

theorem idleStep_of_accept {s t : State} {op : Op} {addr data : Word}
    (h : s.accept op addr data = .next t) : IdleStep s t := by
  obtain ⟨-, ⟨hl, rfl⟩ | ⟨-, rfl⟩⟩ := accept_next h
  · exact .accept op addr data hl
  · exact .reject op addr data

/-- A register word outside its own phase is the client's raw write. -/
theorem issueWord_idle {s : State} {own : Phase} {after : State → State} {off w : Word}
    (hp : s.phase = .idle) (hown : own ≠ .idle) :
    s.issueWord own after off w = .next (s.writeReg off w) := by
  rw [State.issueWord, hp, if_neg hown.symm, if_pos rfl]

/-- The word an instruction writes in `IDLE`, with its offset; a request writes none. -/
def rawWord (i : Instr) : Option (Word × Word) :=
  match encode i with
  | .req _ => none
  | .cmd w => some (Config.offCmd, w)
  | .ah _ w => some (Config.offAh, w)

/-- Every instruction but a request is one write in `IDLE`. -/
theorem exec_idle_word {s : State} {i : Instr} {off w : Word} (hp : s.phase = .idle)
    (hw : rawWord i = some (off, w)) : exec i s = .next (s.writeReg off w) := by
  cases i <;> cases hw
  case unlock1 => exact rawCommand_idle hp
  case unlock2 => exact rawCommand_idle hp
  all_goals exact issueWord_idle hp nofun

theorem exec_idle {s t : State} {i : Instr} (hp : s.phase = .idle) (h : exec i s = .next t) :
    IdleStep s t := by
  cases i with
  | read addr data => exact idleStep_of_accept h
  | write addr data => exact idleStep_of_accept h
  | _ =>
    rw [exec_idle_word hp rfl] at h
    cases h
    exact .write _ _

/-- A step in `IDLE`: the client's own fields change, then the step's act is done. -/
theorem step_idle_cases {s t : State} (hp : s.phase = .idle) (h : step s = .next t) :
    ∃ u, IdleStep (s.withClientOf u) t := by
  rw [step_idle hp, ← clientMove_map] at h
  generalize clientMove s = m at h
  cases m with
  | present p u =>
    simp only [ClientMove.map, ClientMove.run] at h
    cases hd : decode p with
    | ok i =>
      rw [hd] at h
      exact ⟨u, exec_idle hp h⟩
    | error e =>
      rw [hd] at h
      cases h
  | portWrite off w u =>
    cases h
    exact ⟨u, .write off w⟩
  | pause us u =>
    cases h
    exact ⟨u, .pause us⟩
  | quiet u =>
    cases h
    exact ⟨u, .quiet⟩
  | stop fault => cases h
  | refuse r => cases h

/-! Steps of an operation. -/

/-- One step of an operation: the engine's micro step, or the issued word's write and the phase
after it. -/
def operationStep (s : State) : State :=
  match s.phase with
  | .rdAhW => (s.writeReg Config.offAh (ahWord s.tmp (ahRdByte s.reqAddr))).goTo .rdCmdR
  | .rdCmdW => (s.writeReg Config.offCmd (cmdReadWord s.tmp s.reqAddr)).startPoll .rdPoll
  | .wrAhW => (s.writeReg Config.offAh (ahWord s.tmp (ahWrByte s.reqAddr))).goTo .wrEnR
  | .wrEnW => (s.writeReg Config.offCmd (cmdWrenWord s.tmp)).startPoll .wrEnPoll
  | .wrCmdW => (s.writeReg Config.offCmd (cmdWriteWord s.tmp s.reqAddr)).startPoll .wrPoll
  | _ => engineMicroStep s

/-- The engine issues the encoding of an instruction: the step is that instruction. -/
theorem step_issued {s t : State} {i : Instr} (hp : s.phase ≠ .idle)
    (hi : issuedPacket s = some (encode i)) (hx : exec i s = .next t) : step s = .next t :=
  (step_of_fetch_encode (fetch_of_issuedPacket hp hi)).trans hx

theorem step_unissued {s : State} (hp : s.phase ≠ .idle) (hf : s.phase ≠ .fault)
    (hi : issuedPacket s = none) : step s = .next (engineMicroStep s) := by
  simp only [step, fetch, microStep, if_neg hp, if_neg hf, hi]

theorem step_fault {s : State} (hp : s.phase = .fault) : step s = .fault .faultTerminal := by
  simp [step, fetch, issuedPacket, microStep, hp]

/-- In an operation every step has a next state: an issued word decodes to the instruction of its
phase (41_command_encoder.md R145), and that instruction completes there. -/
theorem step_operation {s : State} (hidle : s.phase ≠ .idle) (hfault : s.phase ≠ .fault) :
    step s = .next (operationStep s) := by
  cases hp : s.phase <;> simp only [operationStep, hp]
  case idle => exact absurd hp hidle
  case fault => exact absurd hp hfault
  case rdAhW =>
    rw [ahWord_eq]
    refine step_issued (i := .ahRd _ _) hidle ?_ (issueWord_own hp)
    simp only [issuedPacket, hp, ahWord_eq, encode]
  case wrAhW =>
    rw [ahWord_eq]
    refine step_issued (i := .ahWr _ _) hidle ?_ (issueWord_own hp)
    simp only [issuedPacket, hp, ahWord_eq, encode]
  case rdCmdW =>
    rw [cmdReadWord_eq]
    refine step_issued (i := .cmdRead _ _ _) hidle ?_ (issueWord_own hp)
    simp only [issuedPacket, hp, cmdReadWord_eq, encode]
  case wrEnW =>
    rw [cmdWrenWord_eq]
    refine step_issued (i := .cmdWren _) hidle ?_ (issueWord_own hp)
    simp only [issuedPacket, hp, cmdWrenWord_eq, encode]
  case wrCmdW =>
    rw [cmdWriteWord_eq]
    refine step_issued (i := .cmdWrite _ _ _) hidle ?_ (issueWord_own hp)
    simp only [issuedPacket, hp, cmdWriteWord_eq, encode]
  all_goals
    refine step_unissued hidle hfault ?_
    simp only [issuedPacket, hp]

/-- Everything a step can do. -/
theorem step_cases {s t : State} (h : step s = .next t) :
    (s.phase = .idle ∧ ∃ u, IdleStep (s.withClientOf u) t) ∨
      (s.phase ≠ .idle ∧ s.phase ≠ .fault ∧ t = operationStep s) := by
  by_cases hidle : s.phase = .idle
  · exact .inl ⟨hidle, step_idle_cases hidle h⟩
  · by_cases hfault : s.phase = .fault
    · rw [step_fault hfault] at h
      cases h
    · rw [step_operation hidle hfault] at h
      cases h
      exact .inr ⟨hidle, hfault, rfl⟩

end Sys2Proof.Machine

/-! ## The engine's invariant (10_state.md R25, R28, 43_operations.md R182) -/

namespace Sys2Proof.Machine

/-- The operation a phase belongs to (10_state.md R26). -/
def Phase.operation (p : Phase) : Option Op :=
  if p.ofRead then some .read else if p.ofWrite then some .write else none

theorem operation_eq_read {p : Phase} : p.operation = some .read ↔ p.ofRead = true := by
  cases p <;> decide

theorem operation_eq_write {p : Phase} : p.operation = some .write ↔ p.ofWrite = true := by
  cases p <;> decide

/-- The poll counter's range in a phase (10_state.md R25, 30_encoding.md R113). -/
def Phase.CounterFits (p : Phase) (n : Nat) : Prop :=
  n ≤ Config.pollAttempts ∧ (p.isPoll = true → n < Config.pollAttempts) ∧
    (p.isSleep = true → 1 ≤ n)

theorem counterFits_of_le {p : Phase} {n : Nat} (hpoll : p.isPoll = false)
    (hsleep : p.isSleep = false) (hn : n ≤ Config.pollAttempts) : p.CounterFits n :=
  ⟨hn, by simp [hpoll], by simp [hsleep]⟩

theorem counterFits_of_lt {p : Phase} {n : Nat} (hsleep : p.isSleep = false)
    (hn : n < Config.pollAttempts) : p.CounterFits n :=
  ⟨hn.le, fun _ => hn, by simp [hsleep]⟩

theorem counterFits_of_pos {p : Phase} {n : Nat} (hpoll : p.isPoll = false)
    (hn : n ≤ Config.pollAttempts) (hpos : 1 ≤ n) : p.CounterFits n :=
  ⟨hn, by simp [hpoll], fun _ => hpos⟩

/-- The request latches hold the operation in progress, with a legal address. -/
theorem EngineInv.request {s : State} (h : EngineInv s) {op : Op}
    (hp : s.phase.operation = some op) : s.reqOp = op ∧ legal s.reqAddr = true := by
  cases op with
  | read => exact h.read_op (operation_eq_read.1 hp)
  | write => exact h.write_op (operation_eq_write.1 hp)

theorem EngineInv.outcome_ne_fault {s : State} (h : EngineInv s) (hp : s.phase ≠ .fault)
    (e : EngineError) : s.outcome ≠ some (.fault e) :=
  fun he => hp (h.fault_iff.2 ⟨e, he⟩)

theorem engineInv_of_operation {s : State} {op : Op} (hp : s.phase.operation = some op)
    (hn : s.phase.CounterFits s.attempt) (hout : ∀ e, s.outcome ≠ some (.fault e))
    (hop : s.reqOp = op) (hl : legal s.reqAddr = true) : EngineInv s := by
  subst hop
  obtain ⟨hle, hpoll, hsleep⟩ := hn
  refine ⟨hle, hpoll, hsleep, ⟨fun hf => ?_, fun ⟨e, he⟩ => absurd he (hout e)⟩,
    fun hr => ⟨?_, hl⟩, fun hw => ⟨?_, hl⟩⟩
  · rw [hf] at hp
    cases hp
  · exact Option.some.inj (hp.symm.trans (operation_eq_read.2 hr))
  · exact Option.some.inj (hp.symm.trans (operation_eq_write.2 hw))

/-- A state of the same operation in which the counter fits its phase. -/
theorem EngineInv.onward {s t : State} (h : EngineInv s) {op : Op}
    (hs : s.phase.operation = some op) (ht : t.phase.operation = some op)
    (hn : t.phase.CounterFits t.attempt) (hout : t.outcome = s.outcome)
    (hop : t.reqOp = s.reqOp) (haddr : t.reqAddr = s.reqAddr) : EngineInv t := by
  have hf : s.phase ≠ .fault := fun hf => by
    rw [hf] at hs
    cases hs
  obtain ⟨hsop, hsl⟩ := h.request hs
  exact engineInv_of_operation ht hn (hout ▸ h.outcome_ne_fault hf) (hop.trans hsop) (haddr ▸ hsl)

/-- The end of an operation in success. -/
theorem engineInv_complete {s : State} {r : Response} (hn : s.attempt ≤ Config.pollAttempts)
    (hr : ∀ e, r ≠ .fault e) : EngineInv (s.complete r) :=
  ⟨hn, nofun, nofun, ⟨nofun, fun ⟨e, he⟩ => absurd (Option.some.inj he) (hr e)⟩, nofun, nofun⟩

/-- The end of an operation in an error. -/
theorem engineInv_raise {s : State} {e : EngineError} (hn : s.attempt ≤ Config.pollAttempts) :
    EngineInv (s.raise e) :=
  ⟨hn, nofun, nofun, ⟨fun _ => ⟨e, rfl⟩, fun _ => rfl⟩, nofun, nofun⟩

/-- The invariant speaks of no field of the client. -/
theorem EngineInv.withClientOf {s : State} (h : EngineInv s) (u : State) :
    EngineInv (s.withClientOf u) :=
  ⟨h.attempt_le, h.poll_lt, h.sleep_pos, h.fault_iff, h.read_op, h.write_op⟩

theorem EngineInv.idleStep {s t : State} (h : EngineInv s) (hp : s.phase = .idle)
    (ht : IdleStep s t) : EngineInv t := by
  cases ht with
  | quiet => exact h
  | pause us =>
    exact ⟨h.attempt_le, h.poll_lt, h.sleep_pos, h.fault_iff, h.read_op, h.write_op⟩
  | write off w =>
    exact ⟨h.attempt_le, h.poll_lt, h.sleep_pos, h.fault_iff, h.read_op, h.write_op⟩
  | accept op addr data hl =>
    have hout := h.outcome_ne_fault (by simp [hp])
    cases op <;>
      exact engineInv_of_operation rfl (counterFits_of_le rfl rfl h.attempt_le) hout rfl hl
  | reject op addr data => exact engineInv_raise h.attempt_le

/-- A poll attempt counts, and ends in the poll's sleep or where the poll goes on to. -/
theorem EngineInv.pollAttempt {s : State} (h : EngineInv s) {op : Op} {sleepPhase : Phase}
    {onClear : State → State} (hs : s.phase.operation = some op) (hpoll : s.phase.isPoll = true)
    (hop : sleepPhase.operation = some op) (hsleep : sleepPhase.isPoll = false)
    (hclear : s.attempt + 1 ≤ Config.pollAttempts →
      EngineInv (onClear { s.afterRead Config.offCmd with attempt := s.attempt + 1 })) :
    EngineInv (s.pollAttempt sleepPhase onClear) := by
  have hn : s.attempt + 1 ≤ Config.pollAttempts := h.poll_lt hpoll
  obtain ⟨-, he⟩ | ⟨-, he⟩ := pollAttempt_cases s sleepPhase onClear <;> rw [he]
  · exact h.onward hs hop (counterFits_of_pos hsleep hn (Nat.le_add_left 1 _)) rfl rfl rfl
  · exact hclear hn

/-- A sleep ends in the timeout or in the next attempt, which the counter still admits. -/
theorem EngineInv.pollSleep {s : State} (h : EngineInv s) {op : Op} {kind : PollKind}
    {pollPhase : Phase} (hs : s.phase.operation = some op) (hop : pollPhase.operation = some op)
    (hpoll : pollPhase.isSleep = false) : EngineInv (s.pollSleep kind pollPhase) := by
  obtain ⟨-, he⟩ | ⟨hne, he⟩ := pollSleep_cases s kind pollPhase <;> rw [he]
  · exact engineInv_raise h.attempt_le
  · exact h.onward hs hop (counterFits_of_lt hpoll (h.attempt_le.lt_of_ne hne)) rfl rfl rfl

theorem EngineInv.operationStep {s : State} (h : EngineInv s) : EngineInv (operationStep s) := by
  have hle {q : Phase} (hp : q.isPoll = false) (hs : q.isSleep = false) : q.CounterFits s.attempt :=
    counterFits_of_le hp hs h.attempt_le
  have hzero {q : Phase} (hs : q.isSleep = false) : q.CounterFits 0 :=
    counterFits_of_lt hs (by decide)
  cases hp : s.phase <;> simp only [Machine.operationStep, engineMicroStep, hp] <;>
    have hop := congrArg Phase.operation hp
  case idle | fault => exact h
  case rdAhR | rdAhW | rdCmdR | wrAhR | wrAhW | wrEnR | wrDataW | wrCmdR =>
    exact h.onward hop rfl (hle rfl rfl) rfl rfl rfl
  case rdCmdW | wrEnW | wrCmdW => exact h.onward hop rfl (hzero rfl) rfl rfl rfl
  case rdPoll | wrEnPoll =>
    exact h.pollAttempt hop (congrArg Phase.isPoll hp) rfl rfl fun hn =>
      h.onward hop rfl (counterFits_of_le rfl rfl hn) rfl rfl rfl
  case wrPoll =>
    exact h.pollAttempt hop (congrArg Phase.isPoll hp) rfl rfl fun hn =>
      engineInv_complete hn nofun
  case rdSleep | wrEnSleep | wrSleep => exact h.pollSleep hop rfl rfl
  case rdDataR => exact engineInv_complete h.attempt_le nofun

/-- Settles O45: acceptance establishes the operation's part of the invariant, `EngineInv.onward`
carries it from phase to phase, and the counter stays in range because a sleep goes back to its
poll only below 100. -/
theorem engineInvKept : Obligations.EngineInvKept := by
  intro s t h hstep
  obtain ⟨hidle, u, hu⟩ | ⟨-, -, rfl⟩ := step_cases hstep
  · exact (h.withClientOf u).idleStep hidle hu
  · exact h.operationStep

end Sys2Proof.Machine

/-! ## The register port in a step, and the EEPROM content (10_state.md R41, log entry 14) -/

namespace Sys2Proof.Machine

/-- What a step does at the register port: nothing, one sleep, one read or one write. -/
inductive PortStep (s t : State) : Prop where
  | none (hh : t.history = s.history) (he : t.env = s.env)
  | sleep (us : Nat) (hh : t.history = s.history ++ [.sleep us]) (he : t.env = s.env)
  | read (off : Word) (hh : t.history = s.history ++ [.rd off (s.answer off)])
      (he : t.env = s.env.afterRead off)
  | write (off w : Word) (hh : t.history = s.history ++ [.wr off w])
      (he : t.env = s.env.afterWrite off w)

theorem portStep_pollAttempt {s : State} {sleepPhase : Phase} {onClear : State → State}
    (hclear : ∀ u, (onClear u).history = u.history ∧ (onClear u).env = u.env) :
    PortStep s (s.pollAttempt sleepPhase onClear) := by
  obtain ⟨-, he⟩ | ⟨-, he⟩ := pollAttempt_cases s sleepPhase onClear <;> rw [he]
  · exact .read Config.offCmd rfl rfl
  · obtain ⟨hhist, henv⟩ := hclear { s.afterRead Config.offCmd with attempt := s.attempt + 1 }
    exact .read Config.offCmd hhist henv

theorem portStep_pollSleep (s : State) (kind : PollKind) (pollPhase : Phase) :
    PortStep s (s.pollSleep kind pollPhase) := by
  obtain ⟨-, he⟩ | ⟨-, he⟩ := pollSleep_cases s kind pollPhase <;> rw [he]
  · exact .sleep Config.pollIntervalUs rfl rfl
  · exact .sleep Config.pollIntervalUs rfl rfl

theorem portStep_operationStep (s : State) : PortStep s (operationStep s) := by
  cases hp : s.phase <;> simp only [operationStep, engineMicroStep, hp]
  case idle | fault => exact .none rfl rfl
  case rdPoll | wrEnPoll | wrPoll => exact portStep_pollAttempt fun _ => ⟨rfl, rfl⟩
  case rdSleep | wrEnSleep | wrSleep => exact portStep_pollSleep s _ _
  case rdAhR | rdCmdR | rdDataR | wrAhR | wrEnR | wrCmdR => exact .read _ rfl rfl
  case rdAhW | rdCmdW | wrAhW | wrEnW | wrDataW | wrCmdW => exact .write _ _ rfl rfl

theorem portStep_of_idleStep {s u t : State} (h : IdleStep (s.withClientOf u) t) :
    PortStep s t := by
  cases h with
  | quiet => exact .none rfl rfl
  | pause us => exact .sleep us rfl rfl
  | write off w => exact .write off w rfl rfl
  | accept op addr data hl => exact .none rfl rfl
  | reject op addr data => exact .none rfl rfl

theorem portStep_of_step {s t : State} (h : step s = .next t) : PortStep s t := by
  obtain ⟨-, u, hu⟩ | ⟨-, -, rfl⟩ := step_cases h
  · exact portStep_of_idleStep hu
  · exact portStep_operationStep s

/-- The canonical form of the memory an environment holds. -/
def Environment.MemWf (e : Environment) : Prop :=
  ∀ c, e = .refCtl c → c.mem.wf

theorem memWf_iff (s : State) : MemWf s ↔ s.env.MemWf := by
  unfold MemWf
  cases s.env <;> simp [Environment.MemWf]

theorem Environment.MemWf.afterRead {e : Environment} (h : e.MemWf) (off : Word) :
    (e.afterRead off).MemWf := by
  cases e with
  | oracle answers => exact nofun
  | refCtl c =>
    rintro _ ⟨⟩
    rw [RefCtl.afterRead_mem]
    exact h c rfl

theorem Environment.MemWf.afterWrite {e : Environment} (h : e.MemWf) (off w : Word) :
    (e.afterWrite off w).MemWf := by
  cases e with
  | oracle answers => exact nofun
  | refCtl c =>
    rintro _ ⟨⟩
    exact c.wf_write off w (h c rfl)

/-- Settles O47: the environment changes by one read or one write at the port, or not at all. -/
theorem memoryFormKept : Obligations.MemoryFormKept := by
  intro s t h hstep
  rw [memWf_iff] at h ⊢
  cases portStep_of_step hstep with
  | none _ he => exact he ▸ h
  | sleep us _ he => exact he ▸ h
  | read off _ he => exact he ▸ h.afterRead off
  | write off w _ he => exact he ▸ h.afterWrite off w

end Sys2Proof.Machine

/-! ## The latches a phase still reads (10_state.md R23) -/

namespace Sys2Proof.Machine

/-- What the rest of the operation can read of the latches: the address and the data, `TMP` between
the read and the write of an update, `ATTEMPT` while polling. The others are set to 0; which
operation runs is in the phase. -/
def Phase.live (p : Phase) (l : Latches) : Latches :=
  match p with
  | .idle | .fault => ⟨.read, 0#32, 0#32, 0#32, 0#32, 0⟩
  | .rdAhW | .rdCmdW | .wrAhW | .wrEnW | .wrCmdW => ⟨.read, l.reqAddr, l.reqData, l.tmp, 0#32, 0⟩
  | .rdPoll | .rdSleep | .wrEnPoll | .wrEnSleep | .wrPoll | .wrSleep =>
    ⟨.read, l.reqAddr, l.reqData, 0#32, 0#32, l.attempt⟩
  | .rdAhR | .rdCmdR | .rdDataR | .wrAhR | .wrEnR | .wrDataW | .wrCmdR =>
    ⟨.read, l.reqAddr, l.reqData, 0#32, 0#32, 0⟩

/-- The state with every latch that no later step reads set to 0. -/
def State.blank (s : State) : State :=
  s.withLatches (s.phase.live s.latches)

@[simp] theorem blank_phase (s : State) : s.blank.phase = s.phase := rfl

@[simp] theorem blank_writeReg (s : State) (off w : Word) :
    (s.writeReg off w).blank = s.blank.writeReg off w := rfl

theorem live_live (p : Phase) (l : Latches) : p.live (p.live l) = p.live l := by
  cases p <;> rfl

@[simp] theorem blank_blank (s : State) : s.blank.blank = s.blank :=
  congrArg s.withLatches (live_live s.phase s.latches)

/-- In `IDLE` every latch is dead. -/
theorem blank_idle {s : State} (hp : s.phase = .idle) :
    s.blank = s.withLatches (Phase.idle.live s.latches) := by
  rw [State.blank, hp]

theorem blank_withLatches {s : State} (hp : s.phase = .idle) (l : Latches) :
    (s.withLatches l).blank = s.blank := by
  rw [blank_idle hp, blank_idle (s := s.withLatches l) hp]
  rfl

/-- The next state of an outcome, seen through a function. -/
def mapNext (f : State → State) (o : Host.Outcome State Fault Refusal) :
    Host.Outcome State Fault Refusal :=
  match o with
  | .next t => .next (f t)
  | .fault r => .fault r
  | .refused r => .refused r

theorem accept_blank {s : State} (op : Op) (addr data : Word) (hp : s.phase = .idle) :
    mapNext State.blank (s.blank.accept op addr data) =
      mapNext State.blank (s.accept op addr data) := by
  simp only [State.accept, blank_phase, hp, if_true, mapNext]
  split
  · cases op <;> rfl
  · rfl

theorem exec_blank {s : State} (i : Instr) (hp : s.phase = .idle) :
    mapNext State.blank (exec i s.blank) = mapNext State.blank (exec i s) := by
  cases i with
  | read addr data => exact accept_blank .read addr data hp
  | write addr data => exact accept_blank .write addr data hp
  | _ =>
    rw [exec_idle_word hp rfl, exec_idle_word (s := s.blank) hp rfl]
    simp only [mapNext, blank_writeReg, blank_blank]

theorem step_blank_idle {s : State} (hp : s.phase = .idle) :
    mapNext State.blank (step s.blank) = mapNext State.blank (step s) := by
  have hblank : clientMove s.blank = (clientMove s).map fun u => (s.withClientOf u).blank :=
    clientMove_withLatches s (s.phase.live s.latches)
  rw [step_idle hp, step_idle (s := s.blank) hp, hblank, ← clientMove_map s]
  cases clientMove s with
  | present p u =>
    simp only [ClientMove.map, ClientMove.run]
    cases decode p with
    | ok i => exact exec_blank (s := s.withClientOf u) i hp
    | error e => rfl
  | portWrite off w u =>
    exact congrArg Host.Outcome.next (blank_blank ((s.withClientOf u).writeReg off w))
  | pause us u => exact congrArg Host.Outcome.next (blank_blank ((s.withClientOf u).sleepUs us))
  | quiet u => exact congrArg Host.Outcome.next (blank_blank (s.withClientOf u))
  | stop fault => rfl
  | refuse r => rfl

theorem blank_ite {p : Prop} [Decidable p] {a a' b b' : State} (ha : a'.blank = a.blank)
    (hb : b'.blank = b.blank) : (if p then a' else b').blank = (if p then a else b).blank := by
  split
  · exact ha
  · exact hb

/-- A step of an operation reads live latches only. -/
theorem operationStep_blank (s : State) :
    (operationStep s.blank).blank = (operationStep s).blank := by
  obtain ⟨phase⟩ := s
  cases phase
  case rdPoll | rdSleep | wrEnPoll | wrEnSleep | wrPoll | wrSleep => exact blank_ite rfl rfl
  all_goals rfl

/-- Dead latches change no step but in dead latches. -/
theorem step_blank (s : State) :
    mapNext State.blank (step s.blank) = mapNext State.blank (step s) := by
  by_cases hidle : s.phase = .idle
  · exact step_blank_idle hidle
  · by_cases hfault : s.phase = .fault
    · rw [step_fault hfault, step_fault (s := s.blank) hfault]
    · rw [step_operation hidle hfault, step_operation (s := s.blank) hidle hfault]
      exact congrArg Host.Outcome.next (operationStep_blank s)

theorem mapNext_eq_next {f : State → State} {o : Host.Outcome State Fault Refusal} {u : State} :
    mapNext f o = .next u ↔ ∃ t, o = .next t ∧ f t = u := by
  cases o <;> simp [mapNext]

theorem mapNext_eq_fault {f : State → State} {o : Host.Outcome State Fault Refusal} {r : Fault} :
    mapNext f o = .fault r ↔ o = .fault r := by
  cases o <;> simp [mapNext]

theorem mapNext_eq_refused {f : State → State} {o : Host.Outcome State Fault Refusal}
    {r : Refusal} : mapNext f o = .refused r ↔ o = .refused r := by
  cases o <;> simp [mapNext]

/-- Nor do they change a run. -/
theorem runSteps_blank (n : Nat) (s : State) :
    mapNext State.blank (runSteps n s.blank) = mapNext State.blank (runSteps n s) := by
  induction n generalizing s with
  | zero => exact congrArg Host.Outcome.next (blank_blank s)
  | succ n ih =>
    have hstep := step_blank s
    cases hs : step s with
    | next t =>
      rw [hs] at hstep
      obtain ⟨u, hu, hut⟩ := mapNext_eq_next.1 hstep
      rw [runSteps_next hs, runSteps_next hu, ← ih u, hut, ih t]
    | fault r =>
      rw [hs] at hstep
      rw [runSteps_fault hs, runSteps_fault (mapNext_eq_fault.1 hstep)]
    | refused r =>
      rw [hs] at hstep
      rw [runSteps_refused hs, runSteps_refused (mapNext_eq_refused.1 hstep)]

theorem observe_mapNext_blank (o : Host.Outcome State Fault Refusal) :
    observe (mapNext State.blank o) = observe o := by
  cases o <;> rfl

/-- Settles O40: two states that agree once their dead latches are set to 0 run alike, and in `IDLE`
every latch is dead. -/
theorem latchesDeadInIdle : Obligations.LatchesDeadInIdle := by
  intro s op ra rd tmp res att n hp
  change _ = observe (runSteps n (s.withLatches ⟨op, ra, rd, tmp, res, att⟩))
  rw [← observe_mapNext_blank, ← runSteps_blank, ← blank_withLatches hp, runSteps_blank,
    observe_mapNext_blank]

end Sys2Proof.Machine

/-! ## The one event of a step (20_memory.md R63, R69, decision D2) -/

namespace Sys2Proof.Machine

theorem PortStep.history {s t : State} (h : PortStep s t) :
    t.history = s.history ∨ ∃ e, t.history = s.history ++ [e] := by
  cases h with
  | none hh _ => exact .inl hh
  | sleep us hh _ => exact .inr ⟨_, hh⟩
  | read off hh _ => exact .inr ⟨_, hh⟩
  | write off w hh _ => exact .inr ⟨_, hh⟩

/-- A poll attempt is one read of the command register. -/
theorem pollAttempt_history {s : State} {sleepPhase : Phase} {onClear : State → State}
    (hclear : ∀ u, (onClear u).history = u.history) :
    (s.pollAttempt sleepPhase onClear).history =
      s.history ++ [.rd Config.offCmd (s.answer Config.offCmd)] := by
  obtain ⟨-, he⟩ | ⟨-, he⟩ := pollAttempt_cases s sleepPhase onClear <;> rw [he]
  · rfl
  · exact hclear _

/-- The sleep between two attempts is one event, also where it ends in the timeout. -/
theorem pollSleep_history (s : State) (kind : PollKind) (pollPhase : Phase) :
    (s.pollSleep kind pollPhase).history = s.history ++ [.sleep Config.pollIntervalUs] := by
  obtain ⟨-, he⟩ | ⟨-, he⟩ := pollSleep_cases s kind pollPhase <;> rw [he] <;> rfl

/-- A step of an operation is one event of the engine (10_state.md R40). -/
theorem operationStep_event {s : State} (hidle : s.phase ≠ .idle) (hfault : s.phase ≠ .fault) :
    ∃ e, (operationStep s).history = s.history ++ [e] ∧ e.ofEngine = true := by
  cases hp : s.phase <;> simp only [operationStep, engineMicroStep, hp]
  case idle => exact absurd hp hidle
  case fault => exact absurd hp hfault
  case rdPoll | wrEnPoll | wrPoll => exact ⟨_, pollAttempt_history fun _ => rfl, rfl⟩
  case rdSleep | wrEnSleep | wrSleep => exact ⟨_, pollSleep_history s _ _, rfl⟩
  all_goals exact ⟨_, rfl, rfl⟩

/-- Settles O43: a step is one act at the register port or none, and in an operation it is a step
of the engine. -/
theorem oneEventPerStep : Obligations.OneEventPerStep := by
  intro s t h
  refine ⟨(portStep_of_step h).history, fun hidle => ?_⟩
  obtain ⟨hp, -⟩ | ⟨-, hfault, rfl⟩ := step_cases h
  · exact absurd hp hidle
  · exact operationStep_event hidle hfault

end Sys2Proof.Machine

/-! ## What a register word leaves unchanged (43_operations.md R189, R197, log entry 14) -/

namespace Sys2Proof.Machine

/-- A register word that runs is its one write; beside it only `ATTEMPT` and `PHASE` can change. -/
theorem exec_word_next {s t : State} {i : Instr} {off w : Word} (hw : rawWord i = some (off, w))
    (h : exec i s = .next t) :
    t = { s.writeReg off w with attempt := t.attempt, phase := t.phase } := by
  cases i <;> cases hw
  case cmdRead | cmdWren | cmdWrite | ahRd | ahWr =>
    obtain ⟨-, rfl⟩ | ⟨-, -, rfl⟩ := issueWord_next h <;> rfl
  case unlock1 | unlock2 =>
    obtain ⟨-, rfl⟩ := rawCommand_next h
    rfl

theorem exec_word_env {s t : State} {i : Instr} {off w : Word} (hw : rawWord i = some (off, w))
    (h : exec i s = .next t) : t.env = s.env.afterWrite off w :=
  congrArg State.env (exec_word_next hw h)

theorem cmdCode_encodeCmd (keep : BitVec 11) (b13 : BitVec 1) (code : BitVec 3) (lo : BitVec 13) :
    cmdCode (encodeCmd keep b13 code lo) = code := by
  obtain ⟨-, -, -, hcode, -⟩ := encodeCmd_fields keep b13 code lo
  exact hcode

/-- Only a write command stores to the EEPROM (95_test_vectors.md section 2). -/
theorem RefCtl.command_mem (c : RefCtl) (w : Word) : (c.command w).mem =
    if cmdCode w = Config.codeWrite then c.mem.writeWord (4 * c.index w) c.r264 else c.mem := by
  have hne : Config.codeRead ≠ Config.codeWrite := by decide
  unfold RefCtl.command
  split
  · next hread => rw [if_neg (hread ▸ hne)]
  · split <;> rfl

/-- The EEPROM of a state whose environment has taken a command word: a byte that the word does not
store to stands. -/
theorem eepromByte_command {s t : State} {w : Word} {a : Nat}
    (ht : t.env = s.env.afterWrite Config.offCmd w)
    (ha : ∀ c, s.env = .refCtl c → cmdCode w = Config.codeWrite →
      a < 4 * c.index w ∨ 4 * c.index w + 3 < a) :
    t.eepromByte a = s.eepromByte a := by
  simp only [State.eepromByte, ht]
  cases hs : s.env with
  | oracle answers => rfl
  | refCtl c =>
    have hmem : (c.write Config.offCmd w).mem = _ := c.command_mem w
    simp only [Environment.afterWrite, hmem]
    split
    · next hcode => rw [Memory.readByte_writeWord_other _ _ _ _ (ha c hs hcode)]
    · rfl

/-- Settles O20: a command word is one write of the command register, and only a write command
stores to the EEPROM. -/
theorem commandWordFrame : Obligations.CommandWordFrame := by
  intro s t k b l
  refine ⟨fun i hi h => ?_, fun i hi h a => ?_, fun h c hc a ha => ?_⟩
  · obtain ⟨w, hw, hraw⟩ : ∃ w, encode i = .cmd w ∧ rawWord i = some (Config.offCmd, w) := by
      fin_cases hi <;> exact ⟨_, rfl, rfl⟩
    rw [exec_word_next hraw h]
    exact ⟨rfl, rfl, rfl, rfl, rfl, rfl, rfl, rfl, rfl, rfl, rfl, rfl, rfl, rfl, w, hw, rfl⟩
  · obtain ⟨w, hraw, hcode⟩ :
        ∃ w, rawWord i = some (Config.offCmd, w) ∧ cmdCode w ≠ Config.codeWrite := by
      fin_cases hi <;> exact ⟨_, rfl, by rw [cmdCode_encodeCmd]; decide⟩
    exact eepromByte_command (exec_word_env hraw h) fun _ _ hw => absurd hw hcode
  · refine eepromByte_command (exec_word_env rfl h) fun c' hc' _ => ?_
    cases hc.symm.trans hc'
    exact ha

end Sys2Proof.Machine

/-! ## A word of format CMD is the encoding of its decoding (30_encoding.md R92, R101) -/

namespace Sys2Proof

/-- A word whose bits 19:16 are 0 is made of its four fields. -/
theorem encodeCmd_of_fields {w : Word} {b13 : BitVec 1} {code : BitVec 3} {lo : BitVec 13}
    (hb13 : w.extractLsb' 20 1 = b13) (hzero : w.extractLsb' 16 4 = 0#4)
    (hcode : w.extractLsb' 13 3 = code) (hlo : w.extractLsb' 0 13 = lo) :
    encodeCmd (w.extractLsb' 21 11) b13 code lo = w := by
  rw [Machine.encodeCmd_eq, ← hb13, ← hzero, ← hcode, ← hlo,
    BitVec.extractLsb'_append_extractLsb'_eq_extractLsb' (show 21 = 20 + 1 from rfl),
    BitVec.extractLsb'_append_extractLsb'_eq_extractLsb' (show 20 = 16 + 4 from rfl),
    BitVec.extractLsb'_append_extractLsb'_eq_extractLsb' (show 16 = 13 + 3 from rfl),
    BitVec.extractLsb'_append_extractLsb'_eq_extractLsb' (show 13 = 0 + 13 from rfl)]
  exact BitVec.extractLsb'_eq_self

/-- An instruction the decoder finds in a word of 0x260 is encoded as that word. -/
theorem encode_of_decodeCmd {w : Word} {i : Instr} (h : decodeCmd w = .ok i) :
    encode i = .cmd w := by
  rw [Machine.decodeCmd_eq] at h
  split_ifs at h with hu1 hu2 hzero hread hwrite hwren hfields <;> cases h
  · exact congrArg Packet.cmd hu1.symm
  · exact congrArg Packet.cmd hu2.symm
  · exact congrArg Packet.cmd (encodeCmd_of_fields rfl (not_not.1 hzero) hread rfl)
  · exact congrArg Packet.cmd (encodeCmd_of_fields rfl (not_not.1 hzero) hwrite rfl)
  · obtain ⟨hb13, hlo⟩ := hfields
    exact congrArg Packet.cmd (encodeCmd_of_fields hb13 (not_not.1 hzero) hwren hlo)

end Sys2Proof

/-! ## The client's raw write and the unusable port (20_memory.md R62, 60_exceptions.md R255) -/

namespace Sys2Proof.Machine

theorem offsetOk_iff {off : Word} :
    offsetOk off = true ↔ off.toNat % 4 = 0 ∧ off.toNat < 0x40000 := by
  simp [offsetOk]

/-- A raw write on the Register Space that the environment takes is one write of the whole word: a
command word the decoder knows is presented and run, any other word goes straight to the port. -/
theorem rawWrite_run {s : State} {off w : Word} (hp : s.phase = .idle)
    (hoff : offsetOk off = true) (henv : s.env.refuses w = false) :
    (s.rawWrite off w).run = .next (s.writeReg off w) := by
  by_cases hcmd : off = Config.offCmd
  · subst hcmd
    cases hd : decodeCmd w with
    | ok i =>
      have hword : rawWord i = some (Config.offCmd, w) := by
        rw [rawWord, encode_of_decodeCmd hd]
      rw [rawWrite_command hd]
      simp only [ClientMove.run, decode, hd]
      exact exec_idle_word hp hword
    | error e =>
      simp only [State.rawWrite, hoff, hd, henv, if_true]
      rfl
  · simp only [State.rawWrite, hoff, if_neg hcmd, if_true]
    rfl

/-- With a usable port a step of a raw write is that write's move. -/
theorem step_rawWrite {s : State} {off w : Word} {rest : List Input} (hp : s.phase = .idle)
    (hc : s.client = .none) (hu : s.portUsable = true) (hi : s.inputs = .rawWrite off w :: rest) :
    step s = (State.rawWrite { s with inputs := rest } off w).run := by
  rw [step_idle hp, clientMove_ready hc hi hu]
  rfl

/-- A step with an input whose handles are not usable is ResourceError (log entries 18 and 19). -/
theorem step_unready {s : State} {x : Input} {rest : List Input} (hp : s.phase = .idle)
    (hc : s.client = .none) (hi : s.inputs = x :: rest) (hr : s.ready x = false) :
    step s = .next { s with
      inputs := rest, client := .stopped, report := some (.failed .resource) } :=
  step_quiet hp (clientMove_unready hc hi hr)

/-- The inputs that make transactions need the port. -/
theorem ready_of_port_unusable {s : State} {x : Input} (hu : s.portUsable = false)
    (hx : (∃ off w, x = .rawWrite off w) ∨ (∃ bits, x = .request bits) ∨
      x ∈ [Input.dump, Input.restore, Input.restoreLoop, Input.decodeLive]) :
    s.ready x = false := by
  obtain ⟨off, w, rfl⟩ | ⟨bits, rfl⟩ | hx := hx
  · exact hu
  · exact hu
  · fin_cases hx <;> simp only [State.ready, hu, Bool.false_and]

/-- Settles O54: on a usable port the step is the raw write's move, which the offset decides where
the oracle answers; on an unusable one no input that makes transactions is ready. -/
theorem rawWrites : Obligations.RawWrites := by
  refine ⟨fun s off w rest hp hc hu hi => ⟨fun hbad => ?_, fun hal hlt as henv => ?_⟩,
    fun s x rest hp hc hu hi hx => step_unready hp hc hi (ready_of_port_unusable hu hx)⟩
  · have hoff : ¬ offsetOk off = true := fun h => by
      obtain ⟨hal, hlt⟩ := offsetOk_iff.1 h
      omega
    rw [step_rawWrite hp hc hu hi, State.rawWrite, if_neg hoff]
    rfl
  · have hrefuses : s.env.refuses w = false := henv ▸ rfl
    have hafter : s.env.afterWrite off w = s.env := by rw [henv]; rfl
    rw [(step_rawWrite hp hc hu hi).trans (rawWrite_run hp (offsetOk_iff.2 ⟨hal, hlt⟩) hrefuses)]
    simp only [State.writeReg, hafter]

end Sys2Proof.Machine

/-! ## Every packet has one meaning (30_encoding.md R91, R92, R93, R101, R105) -/

namespace Sys2Proof

open Sys2Proof.Machine Sys2Proof.Laws

/-- Settles O1, constructor by constructor in `decode_encode`. -/
theorem decodeOfEncode : Obligations.DecodeOfEncode :=
  decode_encode

/-- A request packet is made of its operation bit, its address and its data. -/
theorem encodeReq_of_fields {bits : BitVec 65} {op : Op}
    (hop : bits.extractLsb' 64 1 = encodeOp op) :
    encodeReq op (bits.extractLsb' 32 32) (bits.extractLsb' 0 32) = bits := by
  rw [encodeReq, ← hop,
    BitVec.extractLsb'_append_extractLsb'_eq_extractLsb' (show 64 = 32 + 32 from rfl),
    BitVec.extractLsb'_append_extractLsb'_eq_extractLsb' (show 32 = 0 + 32 from rfl)]
  exact BitVec.extractLsb'_eq_self

theorem encode_decodeReq (bits : BitVec 65) : encode (decodeReq bits) = .req bits := by
  simp only [decodeReq, BitVec.getLsbD_eq_extractLsb', beq_iff_eq]
  split
  case isTrue hop => exact congrArg Packet.req (encodeReq_of_fields (op := .write) hop)
  case isFalse hop =>
    exact congrArg Packet.req (encodeReq_of_fields (op := .read)
      ((BitVec.eq_zero_or_eq_one _).resolve_right hop))

theorem encodeAh_of_fields (w : Word) :
    encodeAh (w.extractLsb' 8 24) (w.extractLsb' 0 8) = w := by
  rw [encodeAh_eq, BitVec.extractLsb'_append_extractLsb'_eq_extractLsb' (show 8 = 0 + 8 from rfl)]
  exact BitVec.extractLsb'_eq_self

theorem encode_decodeAh (op : Op) (w : Word) : encode (decodeAh op w) = .ah op w := by
  cases op with
  | read => exact congrArg (Packet.ah .read) (encodeAh_of_fields w)
  | write => exact congrArg (Packet.ah .write) (encodeAh_of_fields w)

/-- Settles O2, place by place: a request and an address-high word are made of their fields, and so
is a word of 0x260 that decodes. -/
theorem encodeOfDecode : Obligations.EncodeOfDecode := by
  intro p i h
  cases p with
  | req bits => exact Except.ok.inj h ▸ encode_decodeReq bits
  | cmd w => exact encode_of_decodeCmd h
  | ah op w => exact Except.ok.inj h ▸ encode_decodeAh op w

/-- A field that a mask keeps whole is read off the masked value. -/
theorem extractLsb'_of_and_eq {w mask value : Word} {start len : Nat} {field : BitVec len}
    (h : w &&& mask = value) (hmask : mask.extractLsb' start len = BitVec.allOnes len)
    (hvalue : value.extractLsb' start len = field) : w.extractLsb' start len = field := by
  rw [← hvalue, ← h, BitVec.extractLsb'_and, hmask, BitVec.and_allOnes]

/-- The word of an instruction has the mask and the match of the instruction's row. -/
theorem and_eq_of_row {w mask value : Word} {i : Instr} (h : decodeCmd w = .ok i)
    (hrow : ∃ w', encode i = .cmd w' ∧ w' &&& mask = value) : w &&& mask = value := by
  obtain ⟨w', hw', hand⟩ := hrow
  exact Packet.cmd.inj (hw'.symm.trans (encode_of_decodeCmd h)) ▸ hand

/-- The mask of CMD.READ and CMD.WRITE fixes bits 19:16 and the code, and leaves the other fields
free. -/
theorem exists_encodeCmd_of_and_eq {w value : Word} {code : BitVec 3}
    (h : w &&& 0x000FE000#32 = value) (hzero : value.extractLsb' 16 4 = 0#4)
    (hcode : value.extractLsb' 13 3 = code) : ∃ k b l, encodeCmd k b code l = w :=
  ⟨_, _, _, encodeCmd_of_fields rfl (extractLsb'_of_and_eq h (by decide) hzero)
    (extractLsb'_of_and_eq h (by decide) hcode) rfl⟩

theorem decodeCmd_cmdRead_iff (w : Word) :
    (∃ k b l, decodeCmd w = .ok (.cmdRead k b l)) ↔ w &&& 0x000FE000#32 = 0x00006000#32 := by
  constructor
  · rintro ⟨k, b, l, h⟩
    exact and_eq_of_row h (RowMatch.cmdRead k b l rfl)
  · intro h
    obtain ⟨k, b, l, rfl⟩ := exists_encodeCmd_of_and_eq (code := 3#3) h (by decide) (by decide)
    exact ⟨k, b, l, decode_encode (.cmdRead k b l)⟩

theorem decodeCmd_cmdWrite_iff (w : Word) :
    (∃ k b l, decodeCmd w = .ok (.cmdWrite k b l)) ↔ w &&& 0x000FE000#32 = 0x00004000#32 := by
  constructor
  · rintro ⟨k, b, l, h⟩
    exact and_eq_of_row h (RowMatch.cmdWrite k b l rfl)
  · intro h
    obtain ⟨k, b, l, rfl⟩ := exists_encodeCmd_of_and_eq (code := 2#3) h (by decide) (by decide)
    exact ⟨k, b, l, decode_encode (.cmdWrite k b l)⟩

theorem decodeCmd_cmdWren_iff (w : Word) :
    (∃ k, decodeCmd w = .ok (.cmdWren k)) ↔ w &&& 0x001FFFFF#32 = 0x0000C000#32 := by
  constructor
  · rintro ⟨k, h⟩
    exact and_eq_of_row h (RowMatch.cmdWren k rfl)
  · intro h
    have hb13 : w.extractLsb' 20 1 = 0#1 := extractLsb'_of_and_eq h (by decide) (by decide)
    have hzero : w.extractLsb' 16 4 = 0#4 := extractLsb'_of_and_eq h (by decide) (by decide)
    have hcode : w.extractLsb' 13 3 = 6#3 := extractLsb'_of_and_eq h (by decide) (by decide)
    have hlo : w.extractLsb' 0 13 = 0#13 := extractLsb'_of_and_eq h (by decide) (by decide)
    rw [← encodeCmd_of_fields hb13 hzero hcode hlo]
    exact ⟨_, decode_encode (.cmdWren _)⟩

/-- A word of 0x260 decodes to an instruction exactly if it is that instruction's word. -/
theorem decodeCmd_eq_ok_iff {v w : Word} {i : Instr} (hi : encode i = .cmd v) :
    decodeCmd w = .ok i ↔ w = v := by
  constructor
  · intro h
    exact Packet.cmd.inj ((encode_of_decodeCmd h).symm.trans hi)
  · rintro rfl
    exact (congrArg decode hi).symm.trans (decode_encode i)

/-- Settles O3: a word that decodes has its row's mask and match, and one that has them is made of
the row's fields; an unlock word is fixed whole. -/
theorem commandRowsByMask : Obligations.CommandRowsByMask := fun w =>
  ⟨decodeCmd_cmdRead_iff w, decodeCmd_cmdWren_iff w, decodeCmd_cmdWrite_iff w,
    decodeCmd_eq_ok_iff (i := .unlock1) rfl, decodeCmd_eq_ok_iff (i := .unlock2) rfl⟩

/-- A word of 0x260 that decodes has bits 19:16 0 and the code of a row or of an unlock word. -/
theorem fields_of_decodeCmd {w : Word} {i : Instr} (h : decodeCmd w = .ok i) :
    w.extractLsb' 16 4 = 0#4 ∧ w.extractLsb' 13 3 ∈ [3#3, 2#3, 6#3, 5#3, 1#3] := by
  rw [decodeCmd_eq] at h
  split_ifs at h with hu1 hu2 hzero hread hwrite hwren hfields
  · subst hu1
    decide
  · subst hu2
    decide
  · exact ⟨not_not.1 hzero, by rw [hread]; decide⟩
  · exact ⟨not_not.1 hzero, by rw [hwrite]; decide⟩
  · exact ⟨not_not.1 hzero, by rw [hwren]; decide⟩

/-- Settles O4: a word that decodes has none of the reserved codes and bits 19:16 all 0. -/
theorem reservedCommandWordsRejected : Obligations.ReservedCommandWordsRejected := by
  intro w hreserved
  cases hd : decodeCmd w with
  | error e => exact ⟨e, rfl⟩
  | ok i =>
    obtain ⟨hzero, hcode⟩ := fields_of_decodeCmd hd
    obtain h | h | h | h := hreserved
    · exact absurd (h ▸ hcode) (by decide)
    · exact absurd (h ▸ hcode) (by decide)
    · exact absurd (h ▸ hcode) (by decide)
    · exact absurd hzero h

/-- Settles O18: a raw command in `IDLE` is one write of the whole word to 0x260. -/
theorem unlockWordsComplete : Obligations.UnlockWordsComplete := fun _ hp =>
  ⟨rawCommand_idle hp, rawCommand_idle hp⟩

end Sys2Proof

/-! ## The address splitter's fields (40_address_splitter.md R121, R122, R123, R126) -/

namespace Sys2Proof.Machine

/-- The two arithmetic tests of the precondition (43_operations.md R182). -/
theorem legal_iff {addr : Word} :
    legal addr = true ↔ addr.toNat ≤ 0x00FFFFFF ∧ addr.toNat % 4 = 0 := by
  simp [legal, BitVec.le_def, ← BitVec.toNat_inj]

theorem wa_toNat (addr : Word) : (wa addr).toNat = addr.toNat / 4 := by
  rw [wa, BitVec.toNat_ushiftRight, Nat.shiftRight_eq_div_pow]
  rfl

/-- A legal address is four times its word address. -/
theorem wa_of_legal {addr : Word} (h : legal addr = true) :
    wa addr ≤ 0x3FFFFF#32 ∧ wa addr <<< 2 = addr := by
  obtain ⟨hmax, halign⟩ := legal_iff.1 h
  constructor
  · rw [BitVec.le_def, wa_toNat]
    exact Nat.div_le_div_right (c := 4) hmax
  · refine BitVec.eq_of_toNat_eq ?_
    rw [BitVec.toNat_shiftLeft, wa_toNat, Nat.shiftLeft_eq]
    omega

/-- The low field is `addr[14:2]`. -/
theorem lo13_eq (addr : Word) : lo13 addr = (addr.extractLsb' 2 13).setWidth 32 := by
  refine BitVec.eq_of_toNat_eq ?_
  have hmask : Config.lowMask.toNat = 2 ^ 13 - 1 := rfl
  rw [lo13, BitVec.toNat_and, hmask, Nat.and_two_pow_sub_one_eq_mod, BitVec.toNat_setWidth,
    BitVec.extractLsb'_toNat]
  exact (Nat.mod_eq_of_lt (by omega)).symm

/-- The period of the low field touches only bits above `addr[14:2]`. -/
theorem lo13_add_period (addr : Word) : lo13 (addr + 0x8000#32) = lo13 addr := by
  rw [lo13_eq, lo13_eq]
  refine congrArg (BitVec.setWidth 32) (BitVec.eq_of_toNat_eq ?_)
  simp only [BitVec.extractLsb'_toNat, BitVec.toNat_add, BitVec.toNat_ofNat,
    Nat.shiftRight_eq_div_pow]
  omega

/-- The high-order bit is `addr[15]`. -/
theorem b13At20_eq (addr : Word) :
    b13At20 addr = if addr.getLsbD 15 then 0x00100000#32 else 0#32 := by
  have hmask : Config.hiBitMask = BitVec.twoPow 32 13 := rfl
  rw [b13At20, hmask, BitVec.and_twoPow, wa, BitVec.getLsbD_ushiftRight]
  split <;> rfl

/-- Settles O6: the masks and shifts are the bits they select, and a legal address is a multiple
of 4 below 2^24. -/
theorem splitterFields : Obligations.SplitterFields := by
  refine ⟨fun addr => ⟨rfl, rfl, lo13_eq addr, lo13_add_period addr, rfl, b13At20_eq addr⟩,
    fun _ => wa_of_legal, ?_⟩
  decide

/-- Settles O8: the merged word is the encoding of `old`'s bits 31:8 and the byte. -/
theorem addressHighMerge : Obligations.AddressHighMerge := by
  refine ⟨fun old byte => ?_, by decide⟩
  obtain ⟨hkeep, hbyte⟩ := encodeAh_fields (old.extractLsb' 8 24) byte
  refine ⟨rfl, ?_, ?_, ?_⟩
  · rw [ahWord_eq, hkeep]
  · rw [ahWord_eq, hbyte]
  · rw [ahWord_eq, encodeAh_of_fields]

end Sys2Proof.Machine

/-! ## The address in a run of an operation (40_address_splitter.md R124, R127) -/

namespace Sys2Proof.Machine

/-- The words an operation forms from its address are the same for two addresses. -/
def SameWords (op : Op) (a b : Word) : Prop :=
  match op with
  | .read => ahRdByte a = ahRdByte b ∧ ∀ old, cmdReadWord old a = cmdReadWord old b
  | .write => ahWrByte a = ahWrByte b ∧ ∀ old, cmdWriteWord old a = cmdWriteWord old b

/-- The state with another address latched. -/
def State.withAddr (s : State) (b : Word) : State :=
  { s with reqAddr := b }

@[simp] theorem withAddr_phase (s : State) (b : Word) : (s.withAddr b).phase = s.phase := rfl

theorem withAddr_ite {p : Prop} [Decidable p] {s s' t t' : State} {b : Word}
    (hs : s' = s.withAddr b) (ht : t' = t.withAddr b) :
    (if p then s' else t') = (if p then s else t).withAddr b := by
  split
  · exact hs
  · exact ht

theorem step_of_operation {s : State} {op : Op} (hop : s.phase.operation = some op) :
    step s = .next (operationStep s) := by
  have hne {p : Phase} (hp : p.operation = none) : s.phase ≠ p := by
    rintro rfl
    cases hp.symm.trans hop
  exact step_operation (hne rfl) (hne rfl)

/-- A step of an operation depends on the latched address through those words only. -/
theorem operationStep_withAddr {s : State} {op : Op} {b : Word}
    (hop : s.phase.operation = some op) (h : SameWords op s.reqAddr b) :
    operationStep (s.withAddr b) = (operationStep s).withAddr b := by
  obtain ⟨phase⟩ := s
  cases phase
  case rdAhW | wrAhW | rdCmdW | wrCmdW =>
    cases hop
    obtain ⟨hbyte, hcmd⟩ := h
    simp only [operationStep, State.withAddr, hbyte, hcmd]
    rfl
  case rdPoll | rdSleep | wrEnPoll | wrEnSleep | wrPoll | wrSleep => exact withAddr_ite rfl rfl
  all_goals rfl

@[simp] theorem operationStep_reqAddr (s : State) : (operationStep s).reqAddr = s.reqAddr := by
  cases hp : s.phase <;> simp only [operationStep, engineMicroStep, hp]
  case rdPoll | wrEnPoll | wrPoll =>
    obtain ⟨-, he⟩ | ⟨-, he⟩ := pollAttempt_cases s _ _ <;> rw [he] <;> rfl
  case rdSleep | wrEnSleep | wrSleep =>
    obtain ⟨-, he⟩ | ⟨-, he⟩ := pollSleep_cases s _ _ <;> rw [he] <;> rfl
  all_goals rfl

/-- A step of an operation goes on with the operation, or the operation has ended. -/
theorem operationStep_phase {s : State} {op : Op} (hop : s.phase.operation = some op) :
    (operationStep s).phase.operation = some op ∨ (operationStep s).phase.operation = none := by
  cases hp : s.phase <;> rw [hp] at hop <;> cases hop <;>
    simp only [operationStep, engineMicroStep, hp]
  case rdPoll | wrEnPoll =>
    obtain ⟨-, he⟩ | ⟨-, he⟩ := pollAttempt_cases s _ _ <;> rw [he] <;> exact .inl rfl
  case wrPoll =>
    obtain ⟨-, he⟩ | ⟨-, he⟩ := pollAttempt_cases s _ _ <;> rw [he]
    · exact .inl rfl
    · exact .inr rfl
  case rdSleep | wrEnSleep | wrSleep =>
    obtain ⟨-, he⟩ | ⟨-, he⟩ := pollSleep_cases s _ _ <;> rw [he]
    · exact .inr rfl
    · exact .inl rfl
  case rdDataR => exact .inr rfl
  all_goals exact .inl rfl

/-- Outside an operation the latched address is dead. -/
theorem blank_withAddr {s : State} (b : Word) (hp : s.phase.operation = none) :
    (s.withAddr b).blank = s.blank := by
  obtain ⟨phase⟩ := s
  cases phase <;> cases hp <;> rfl

theorem observe_runSteps_blank (n : Nat) (s : State) :
    observe (runSteps n s.blank) = observe (runSteps n s) := by
  rw [← observe_mapNext_blank, runSteps_blank, observe_mapNext_blank]

/-- Two addresses with the same words give the operation in progress, and all that follows it, the
same trace and outcome: while the operation runs its steps differ in the latch only, and after it
the latch is dead. -/
theorem observe_runSteps_withAddr {op : Op} {b : Word} (n : Nat) {s : State}
    (hop : s.phase.operation = some op) (h : SameWords op s.reqAddr b) :
    observe (runSteps n (s.withAddr b)) = observe (runSteps n s) := by
  induction n generalizing s with
  | zero => rfl
  | succ n ih =>
    rw [runSteps_next (step_of_operation hop),
      runSteps_next (step_of_operation (s := s.withAddr b) hop), operationStep_withAddr hop h]
    obtain hop' | hended := operationStep_phase hop
    · exact ih hop' ((operationStep_reqAddr s).symm ▸ h)
    · rw [← observe_runSteps_blank, blank_withAddr b hended, observe_runSteps_blank]

/-- A legal request at the head of the stream is accepted (43_operations.md R181). -/
theorem step_presents_legal {s : State} {op : Op} {addr data : Word} {rest : List Input}
    (h : Presents s op addr data rest) (hl : legal addr = true) :
    step s = .next { s with inputs := rest, reqOp := op, reqAddr := addr, reqData := data,
                            phase := firstPhase op } := by
  obtain ⟨hp, hc, hu, hi⟩ := h
  have hfetch := fetch_request hp hc hu hi
  cases op with
  | read =>
    rw [step_of_fetch_encode (i := .read addr data) hfetch]
    simp only [exec, execRead, State.accept, hp, hl, if_true]
  | write =>
    rw [step_of_fetch_encode (i := .write addr data) hfetch]
    simp only [exec, execWrite, State.accept, hp, hl, if_true]

theorem firstPhase_operation (op : Op) : (firstPhase op).operation = some op := by
  cases op <;> rfl

/-- Two legal addresses with the same words, presented in the same state, give the same trace and
outcome after every number of steps. -/
theorem observe_runSteps_request {s : State} {op : Op} {a b : Word} (data : Word)
    (rest : List Input) (n : Nat) (hp : s.phase = .idle) (hc : s.client = .none)
    (hu : s.portUsable = true) (ha : legal a = true) (hb : legal b = true)
    (h : SameWords op a b) :
    observe (runSteps n { s with inputs := .request (encodeReq op a data) :: rest }) =
      observe (runSteps n { s with inputs := .request (encodeReq op b data) :: rest }) := by
  cases n with
  | zero => simp only [runSteps_zero, observe]
  | succ n =>
    have hpresents (x : Word) :
        Presents { s with inputs := .request (encodeReq op x data) :: rest } op x data rest :=
      ⟨hp, hc, hu, rfl⟩
    rw [runSteps_next (step_presents_legal (hpresents a) ha),
      runSteps_next (step_presents_legal (hpresents b) hb)]
    exact (observe_runSteps_withAddr (s := { s with
      inputs := rest, reqOp := op, reqAddr := a, reqData := data, phase := firstPhase op })
      n (firstPhase_operation op) h).symm

/-- Two words that agree in a field agree in every field inside it. -/
theorem extractLsb'_eq_of_le {a b : Word} {start len start' len' : Nat}
    (h : a.extractLsb' start len = b.extractLsb' start len)
    (hlo : start ≤ start') (hhi : start' + len' ≤ start + len) :
    a.extractLsb' start' len' = b.extractLsb' start' len' := by
  refine BitVec.eq_of_getLsbD_eq fun i hi => ?_
  have hbit := congrArg (·.getLsbD (start' - start + i)) h
  simpa [show start' - start + i < len by omega,
    show start + (start' - start + i) = start' + i by omega, hi] using hbit

/-- A Read writes 0 into the low byte of 0x26C (R124). -/
theorem ahRdByte_of_legal {addr : Word} (h : legal addr = true) : ahRdByte addr = 0#8 := by
  obtain ⟨hmax, -⟩ := legal_iff.1 h
  have hshift : addr.toNat / 2 ^ 24 = 0 := Nat.div_eq_of_lt (by omega)
  refine BitVec.eq_of_toNat_eq ?_
  rw [ahRdByte, BitVec.toNat_setWidth, BitVec.toNat_ushiftRight, Nat.shiftRight_eq_div_pow, hshift]
  rfl

/-- The words of a Read hold no more of a legal address than `addr[15:2]`. -/
theorem sameWords_read {a b : Word} (ha : legal a = true) (hb : legal b = true)
    (h : a.extractLsb' 2 14 = b.extractLsb' 2 14) : SameWords .read a b := by
  refine ⟨(ahRdByte_of_legal ha).trans (ahRdByte_of_legal hb).symm, fun old => ?_⟩
  have hb13 : a.extractLsb' 15 1 = b.extractLsb' 15 1 :=
    extractLsb'_eq_of_le h (by decide) (by decide)
  have hlo : a.extractLsb' 2 13 = b.extractLsb' 2 13 :=
    extractLsb'_eq_of_le h (by decide) (by decide)
  rw [cmdReadWord_eq, cmdReadWord_eq, hb13, hlo]

/-- Settles O38: the words of a Read are the same for two such addresses. -/
theorem readAddressesAlias : Obligations.ReadAddressesAlias := by
  intro s a b data rest n hp hc hu ha hb h
  exact observe_runSteps_request data rest n hp hc hu ha hb (sameWords_read ha hb h)

end Sys2Proof.Machine

/-! ## The command words the engine issues (41_command_encoder.md R140, R141, R143, R144, R145) -/

namespace Sys2Proof.Machine

/-- The busy flag is bit 18 (42_busy_poll.md R162). -/
theorem busy_eq (w : Word) : busy w = w.getLsbD 18 := by
  have hmask : Config.busyMask = BitVec.twoPow 32 18 := rfl
  rw [busy, hmask, BitVec.and_twoPow]
  cases w.getLsbD 18 <;> rfl

/-- The busy flag is one of the bits 19:16, which every command word writes 0. -/
theorem busy_eq_false_of_zero {w : Word} (h : w.extractLsb' 16 4 = 0#4) : busy w = false := by
  have hbit : (w.extractLsb' 16 4).getLsbD 2 = false := h ▸ rfl
  rw [busy_eq]
  simpa using hbit

/-- Bits 20:0 hold the code, so words of different codes differ in them. -/
theorem low21_ne_of_code_ne {w : Word} {code : BitVec 3} {low : BitVec 21}
    (hcode : w.extractLsb' 13 3 = code) (h : code ≠ low.extractLsb' 13 3) :
    w.extractLsb' 0 21 ≠ low := by
  rintro rfl
  rw [BitVec.extractLsb'_extractLsb'_of_le (by decide)] at h
  exact h hcode.symm

/-- R144 for the fields of a word of format CMD: the unlock words have codes 5 and 1, the engine's
three codes are others. -/
theorem encodeCmd_issued (keep : BitVec 11) (b13 : BitVec 1) {code : BitVec 3} (lo : BitVec 13)
    (h : code = 3#3 ∨ code = 6#3 ∨ code = 2#3) :
    (encodeCmd keep b13 code lo).extractLsb' 16 4 = 0#4 ∧
    busy (encodeCmd keep b13 code lo) = false ∧
    (encodeCmd keep b13 code lo).extractLsb' 21 11 = keep ∧
    ((encodeCmd keep b13 code lo).extractLsb' 13 3 = 3#3 ∨
      (encodeCmd keep b13 code lo).extractLsb' 13 3 = 6#3 ∨
      (encodeCmd keep b13 code lo).extractLsb' 13 3 = 2#3) ∧
    (encodeCmd keep b13 code lo).extractLsb' 0 21 ≠ 0x00A000#21 ∧
    (encodeCmd keep b13 code lo).extractLsb' 0 21 ≠ 0x002000#21 := by
  obtain ⟨hkeep, -, hzero, hcode, -⟩ := encodeCmd_fields keep b13 code lo
  have hunlock : code ≠ (0x00A000#21).extractLsb' 13 3 ∧ code ≠ (0x002000#21).extractLsb' 13 3 := by
    obtain rfl | rfl | rfl := h <;> decide
  obtain ⟨hunlock1, hunlock2⟩ := hunlock
  exact ⟨hzero, busy_eq_false_of_zero hzero, hkeep, hcode.symm ▸ h,
    low21_ne_of_code_ne hcode hunlock1, low21_ne_of_code_ne hcode hunlock2⟩

/-- Settles O10: each issued word is a word of format CMD with `old`'s bits 31:21 and code 3, 6
or 2. -/
theorem issuedCommandWords : Obligations.IssuedCommandWords := by
  intro old addr w hw
  simp only [List.mem_cons, List.not_mem_nil, or_false] at hw
  obtain rfl | rfl | rfl := hw
  · exact cmdReadWord_eq old addr ▸ encodeCmd_issued _ _ _ (.inl rfl)
  · exact cmdWrenWord_eq old ▸ encodeCmd_issued _ _ _ (.inr (.inl rfl))
  · exact cmdWriteWord_eq old addr ▸ encodeCmd_issued _ _ _ (.inr (.inr rfl))

/-- Settles O11: each issued word is the encoding of the instruction it decodes to. -/
theorem issuedWordsDecode : Obligations.IssuedWordsDecode := fun old addr =>
  ⟨(decodeCmd_eq_ok_iff rfl).2 (cmdReadWord_eq old addr),
    (decodeCmd_eq_ok_iff rfl).2 (cmdWrenWord_eq old),
    (decodeCmd_eq_ok_iff rfl).2 (cmdWriteWord_eq old addr)⟩

/-- Settles O5: the five words are encodings, which the decoder gives back. -/
theorem sampleWordsDecode : Obligations.SampleWordsDecode :=
  ⟨decode_encode (.cmdRead 0#11 1#1 0x137B#13), decode_encode (.cmdWrite 0x55F#11 0#1 0x08D1#13),
    decode_encode (.cmdWren 0x55F#11), decode_encode .unlock1,
    decode_encode (.ahWr 0x123456#24 0x04#8)⟩

/-- `old` contributes its bits 31:21 only (R140). -/
theorem cmdWord_keep (old lo b13at20 : Word) (code : BitVec 3) :
    cmdWord old code lo b13at20 = cmdWord (old &&& 0xFFE00000#32) code lo b13at20 := by
  have hmask : ~~~Config.cmdClearMask = 0xFFE00000#32 := rfl
  rw [cmdWord, cmdWord, hmask, BitVec.and_assoc, BitVec.and_self]

/-- Settles O9: the forms are the definitions with the configuration's literals, and the mask over
`old` is idempotent. -/
theorem commandWordForms : Obligations.CommandWordForms := by
  refine ⟨fun old lo b13at20 code => ⟨rfl, cmdWord_keep old lo b13at20 code⟩,
    fun old addr => ⟨rfl, rfl, rfl, rfl⟩, ?_⟩
  decide

end Sys2Proof.Machine

/-! ## The busy poll: the command word before it, its attempts and its sleeps (42_busy_poll.md) -/

namespace Sys2Proof.Machine

/-- The write-enable word is its preserved bits above a constant (41_command_encoder.md R142). -/
theorem encodeCmd_wren (keep : BitVec 11) :
    encodeCmd keep 0#1 6#3 0#13 = keep ++ 0x00C000#21 := by
  have hword := encodeCmd_of_fields (w := keep ++ 0x00C000#21)
    (BitVec.extractLsb'_append_eq_of_add_le (by decide))
    (BitVec.extractLsb'_append_eq_of_add_le (by decide))
    (BitVec.extractLsb'_append_eq_of_add_le (by decide))
    (BitVec.extractLsb'_append_eq_of_add_le (by decide))
  rwa [BitVec.extractLsb'_append_eq_left] at hword

/-- Settles O16: the word is written in its own phase, and its fields stand side by side. -/
theorem commandWordsComplete : Obligations.CommandWordsComplete := by
  intro s keep b13 lo
  rw [← encodeCmd_wren, ← encodeCmd_eq, ← encodeCmd_eq]
  exact ⟨issueWord_own, issueWord_own, issueWord_own⟩

/-- The phase that reads the busy flag in a poll of each kind (10_state.md R26). -/
def PollKind.pollPhase (kind : PollKind) : Phase :=
  match kind with
  | .read => .rdPoll
  | .writeEnable => .wrEnPoll
  | .writeCommit => .wrPoll

/-- The phase that sleeps in a poll of each kind. -/
def PollKind.sleepPhase (kind : PollKind) : Phase :=
  match kind with
  | .read => .rdSleep
  | .writeEnable => .wrEnSleep
  | .writeCommit => .wrSleep

/-- What follows a poll of each kind that saw the busy flag clear (43_operations.md R187, R193,
R196). -/
def PollKind.onClear (kind : PollKind) (s : State) : State :=
  match kind with
  | .read => { s with phase := .rdDataR }
  | .writeEnable => { s with phase := .wrDataW }
  | .writeCommit => s.complete .ok

theorem step_poll {s : State} {kind : PollKind} (hp : s.phase = kind.pollPhase) :
    step s = .next (s.pollAttempt kind.sleepPhase kind.onClear) := by
  cases kind <;>
    rw [step_operation (hp ▸ nofun) (hp ▸ nofun), operationStep, engineMicroStep, hp] <;> rfl

theorem step_sleep {s : State} {kind : PollKind} (hp : s.phase = kind.sleepPhase) :
    step s = .next (s.pollSleep kind kind.pollPhase) := by
  cases kind <;>
    rw [step_operation (hp ▸ nofun) (hp ▸ nofun), operationStep, engineMicroStep, hp] <;> rfl

/-- Settles O30: a step of a poll phase is one attempt, in which `busy` is bit 18. -/
theorem pollAttempts : Obligations.PollAttempts := by
  refine ⟨⟨busy_eq, by decide⟩, fun s => ⟨fun hp => (step_poll (kind := .read) hp).trans ?_,
    fun hp => (step_poll (kind := .writeEnable) hp).trans ?_,
    fun hp => (step_poll (kind := .writeCommit) hp).trans ?_⟩⟩
  all_goals
    obtain ⟨hb, he⟩ | ⟨hb, he⟩ := pollAttempt_cases s _ _ <;> rw [he, ← busy_eq, hb] <;> rfl

theorem step_sleep_of_lt {s : State} {kind : PollKind} (hp : s.phase = kind.sleepPhase)
    (hn : s.attempt < 100) : step s = .next
      { s with history := s.history ++ [.sleep 100], phase := kind.pollPhase } := by
  obtain ⟨-, he⟩ := (pollSleep_cases s kind kind.pollPhase).resolve_left fun h => hn.ne h.1
  rw [step_sleep hp, he]
  rfl

theorem step_sleep_of_eq {s : State} {kind : PollKind} (hp : s.phase = kind.sleepPhase)
    (hn : s.attempt = 100) : step s = .next
      { s with
        history := s.history ++ [.sleep 100],
        outcome := some (.fault (.timeout kind)), phase := .fault } := by
  obtain ⟨-, he⟩ := (pollSleep_cases s kind kind.pollPhase).resolve_right fun h => h.1 hn
  rw [step_sleep hp, he]
  rfl

/-- Settles O31: the three sleeps differ in the phases and in the kind of the timeout only. -/
theorem pollSleeps : Obligations.PollSleeps := by
  intro s x hx hp
  simp only [List.mem_cons, List.not_mem_nil, or_false] at hx
  obtain rfl | rfl | rfl := hx
  · exact ⟨step_sleep_of_lt (kind := .read) hp, step_sleep_of_eq (kind := .read) hp⟩
  · exact ⟨step_sleep_of_lt (kind := .writeEnable) hp, step_sleep_of_eq (kind := .writeEnable) hp⟩
  · exact ⟨step_sleep_of_lt (kind := .writeCommit) hp, step_sleep_of_eq (kind := .writeCommit) hp⟩

/-! Busy attempts in a row, with the answers already drawn (log entry 2). -/

/-- The state after attempts that saw the busy words `bs`, each slept after, with the answers `as`
left. -/
def State.afterBusy (s : State) (bs as : List Word) : State :=
  { s with
    history := s.history ++ busyPolls bs, env := .oracle as, attempt := s.attempt + bs.length }

theorem afterBusy_nil {s : State} {as : List Word} (he : s.env = .oracle as) :
    s.afterBusy [] as = s := by
  simp only [State.afterBusy, busyPolls, List.flatMap_nil, List.append_nil, List.length_nil,
    Nat.add_zero, ← he]

theorem afterBusy_afterBusy (s : State) (bs cs as' as : List Word) :
    (s.afterBusy bs as').afterBusy cs as = s.afterBusy (bs ++ cs) as := by
  simp only [State.afterBusy, busyPolls, List.flatMap_append, List.append_assoc,
    List.length_append, Nat.add_assoc]

/-- A busy attempt is one read of the command register; the sleep is next. -/
theorem step_poll_busy {s : State} {kind : PollKind} {b : Word} {as : List Word}
    (hp : s.phase = kind.pollPhase) (he : s.env = .oracle (b :: as)) (hb : busy b = true) :
    step s = .next { s with
      history := s.history ++ [.rd Config.offCmd b], env := .oracle as,
      attempt := s.attempt + 1, phase := kind.sleepPhase } := by
  have ha : s.answer Config.offCmd = b := by
    rw [State.answer, he]
    rfl
  obtain ⟨-, hstep⟩ := (pollAttempt_cases s kind.sleepPhase kind.onClear).resolve_right
    fun h => by simp [ha, hb] at h
  rw [step_poll hp, hstep, State.afterRead, ha, he]
  rfl

/-- A busy attempt below the 100th and its sleep lead back to the poll. -/
theorem runSteps_busy {s : State} {kind : PollKind} {b : Word} {as : List Word}
    (hp : s.phase = kind.pollPhase) (he : s.env = .oracle (b :: as)) (hb : busy b = true)
    (hn : s.attempt + 1 < 100) : runSteps 2 s = .next (s.afterBusy [b] as) := by
  rw [runSteps_next (step_poll_busy hp he hb), runSteps_next (step_sleep_of_lt rfl hn),
    runSteps_zero, List.append_assoc, ← hp]
  rfl

/-- The 100th busy attempt and its sleep end in the timeout. -/
theorem runSteps_busy_last {s : State} {kind : PollKind} {b : Word} {as : List Word}
    (hp : s.phase = kind.pollPhase) (he : s.env = .oracle (b :: as)) (hb : busy b = true)
    (hn : s.attempt + 1 = 100) :
    runSteps 2 s = .next ((s.afterBusy [b] as).raise (.timeout kind)) := by
  rw [runSteps_next (step_poll_busy hp he hb), runSteps_next (step_sleep_of_eq rfl hn),
    runSteps_zero, List.append_assoc]
  rfl

/-- Fewer than 100 busy attempts lead back to the poll. -/
theorem runSteps_busyPolls {kind : PollKind} {as : List Word} (bs : List Word) {s : State}
    (hp : s.phase = kind.pollPhase) (he : s.env = .oracle (bs ++ as))
    (hb : ∀ b ∈ bs, busy b = true) (hn : s.attempt + bs.length < 100) :
    runSteps (2 * bs.length) s = .next (s.afterBusy bs as) := by
  induction bs generalizing s with
  | nil =>
    rw [afterBusy_nil (as := as) he]
    rfl
  | cons b bs ih =>
    obtain ⟨hb, hbs⟩ := List.forall_mem_cons.1 hb
    rw [List.length_cons] at hn ⊢
    have hround : runSteps 2 s = .next (s.afterBusy [b] (bs ++ as)) :=
      runSteps_busy hp he hb (by omega)
    have hlen : s.attempt + 1 + bs.length < 100 := by omega
    rw [Nat.mul_add_one, Nat.add_comm, runSteps_add hround,
      ih (s := s.afterBusy [b] (bs ++ as)) hp rfl hbs hlen, afterBusy_afterBusy]
    rfl

/-- A poll whose 100 attempts all see busy ends in the timeout of its kind (R165). -/
theorem runSteps_timeout {s : State} {kind : PollKind} {bs as : List Word}
    (hp : s.phase = kind.pollPhase) (h0 : s.attempt = 0) (he : s.env = .oracle (bs ++ as))
    (hb : ∀ b ∈ bs, busy b = true) (hn : bs.length = 100) :
    runSteps 200 s = .next ((s.afterBusy bs as).raise (.timeout kind)) := by
  obtain rfl | ⟨init, last, rfl⟩ := bs.eq_nil_or_concat'
  · cases hn
  obtain ⟨hinit, hlast⟩ := List.forall_mem_append.1 hb
  have hlen : init.length = 99 := by simpa using hn
  rw [List.append_assoc, List.singleton_append] at he
  have hrounds := runSteps_busyPolls init hp he hinit (by omega)
  have hround := runSteps_busy_last (s := s.afterBusy init (last :: as)) hp rfl
    (hlast last (List.mem_singleton_self last)) (by rw [State.afterBusy, h0, hlen])
  rw [show 200 = 2 * init.length + 2 by omega, runSteps_add hrounds, hround, afterBusy_afterBusy]

/-- A legal Read reaches its first poll by its acceptance and four transactions
(43_operations.md R183 steps 1 to 3). -/
theorem runSteps_read_to_poll {s : State} {addr data ah cmd : Word} {as : List Word}
    {rest : List Input} (h : Presents s .read addr data rest) (hl : legal addr = true)
    (he : s.env = .oracle (ah :: cmd :: as)) :
    runSteps 5 s = .next { s with
      inputs := rest, reqOp := .read, reqAddr := addr, reqData := data,
      history := s.history ++ readPrefix addr ah cmd, env := .oracle as, tmp := cmd,
      attempt := 0, phase := .rdPoll } := by
  have hhist : s.history ++ readPrefix addr ah cmd =
      s.history ++ [.rd Config.offAh ah] ++ [.wr Config.offAh (ahWord ah (ahRdByte addr))] ++
        [.rd Config.offCmd cmd] ++ [.wr Config.offCmd (cmdReadWord cmd addr)] := by
    simp only [readPrefix, List.append_assoc, List.cons_append, List.nil_append]
  rw [runSteps_next (step_presents_legal h hl), hhist, he]
  iterate 4 rw [runSteps_next (step_of_operation (op := .read) rfl)]
  rfl

/-- Settles O33: five steps to the first poll, then 100 rounds of a busy attempt and its sleep, of
which the last ends in `FAULT`. -/
theorem readTimesOut : Obligations.ReadTimesOut := by
  intro s addr data ah cmd bs as rest h hl he hn hb
  have hpoll := runSteps_read_to_poll h hl he
  have htimeout := (runSteps_add (m := 200) hpoll).trans
    (runSteps_timeout (kind := .read) rfl rfl rfl hb hn)
  exact ⟨_, htimeout, rfl, rfl, rfl, rfl, step_fault rfl⟩

end Sys2Proof.Machine

/-! ## Acceptance of a request (43_operations.md R181, R182) -/

namespace Sys2Proof.Machine

theorem accept_legal {s : State} {op : Op} {addr data : Word} (hp : s.phase = .idle)
    (hl : legal addr = true) : s.accept op addr data = .next { s with
      reqOp := op, reqAddr := addr, reqData := data, phase := firstPhase op } := by
  simp only [State.accept, hp, hl, if_true]

theorem accept_illegal {s : State} {op : Op} {addr data : Word} (hp : s.phase = .idle)
    (hl : legal addr = false) : s.accept op addr data = .next { s with
      reqOp := op, reqAddr := addr, reqData := data,
      outcome := some (.fault (.addressing addr)), phase := .fault } := by
  simp only [State.accept, hp, hl, if_true]
  rfl

/-- Settles O12: both requests are one acceptance. -/
theorem requestsComplete : Obligations.RequestsComplete := fun _ _ _ hp =>
  ⟨fun hl => ⟨accept_legal hp hl, accept_legal hp hl⟩,
    fun hl => ⟨accept_illegal hp hl, accept_illegal hp hl⟩⟩

/-- The instructions of a request are the acceptance of an operation. -/
theorem exec_request {i : Instr} {addr data : Word}
    (hi : i ∈ [Instr.read addr data, Instr.write addr data]) (s : State) :
    ∃ op, exec i s = s.accept op addr data := by
  fin_cases hi
  · exact ⟨.read, rfl⟩
  · exact ⟨.write, rfl⟩

/-- The largest legal address is the last multiple of 4 below 2^24. -/
theorem le_of_legal {addr : Word} (h : legal addr = true) : addr ≤ 0x00FFFFFC#32 := by
  obtain ⟨hmax, halign⟩ := legal_iff.1 h
  have hle : addr.toNat ≤ 0x00FFFFFC := by omega
  exact hle

/-- Settles O13: an illegal address is rejected in the acceptance, which makes no transaction. -/
theorem precondition : Obligations.Precondition := by
  refine ⟨fun _ => legal_iff, fun s addr data hp hl i hi => ?_, rfl, rfl, fun _ => le_of_legal, ?_⟩
  · obtain ⟨op, hexec⟩ := exec_request hi s
    exact ⟨_, hexec.trans (accept_illegal hp hl), rfl, ⟨addr, rfl⟩, rfl, rfl⟩
  · decide

/-- Settles O14: acceptance writes the request latches and the phase, and the outcome of an illegal
address. -/
theorem requestFrame : Obligations.RequestFrame := by
  intro s t addr data i hi h
  obtain ⟨op, hexec⟩ := exec_request hi s
  obtain ⟨-, ⟨-, rfl⟩ | ⟨hl, rfl⟩⟩ := accept_next (hexec.symm.trans h)
  · exact ⟨rfl, rfl, rfl, fun _ => rfl, rfl, rfl, rfl, rfl, rfl, rfl, rfl, rfl, rfl, rfl,
      fun _ => rfl⟩
  · exact ⟨rfl, rfl, rfl, fun hl' => absurd (hl.symm.trans hl') Bool.false_ne_true, rfl, rfl, rfl,
      rfl, rfl, rfl, rfl, rfl, rfl, rfl, fun _ => rfl⟩

/-- Settles O22: a fetched packet that decodes is run; a request's packet is the encoding of its
instruction. -/
theorem stepRunsDecoded : Obligations.StepRunsDecoded := by
  refine ⟨fun s t p i hf hd => ?_, fun s p hp => ⟨fun hf => ?_, fetch_of_issuedPacket hp⟩,
    fun s addr data rest => ⟨fun ⟨hp, hc, hu, hi⟩ => ?_, fun ⟨hp, hc, hu, hi⟩ => ?_⟩⟩
  · simp only [step, hf, hd]
  · rw [fetch, if_neg hp] at hf
    cases hissued : issuedPacket s with
    | none =>
      rw [hissued] at hf
      cases hf
    | some q =>
      rw [hissued] at hf
      cases hf
      rfl
  · exact step_of_fetch_encode (i := .read addr data) (fetch_request hp hc hu hi)
  · exact step_of_fetch_encode (i := .write addr data) (fetch_request hp hc hu hi)

end Sys2Proof.Machine

/-! ## The address-high words and the unlock words (43_operations.md R184, R191) -/

namespace Sys2Proof.Machine

/-- Settles O17: the word is written in its own phase, and its fields stand side by side. -/
theorem addressHighWordsComplete : Obligations.AddressHighWordsComplete := by
  intro s keep byte
  rw [← encodeAh_eq]
  exact ⟨issueWord_own, issueWord_own⟩

/-- A write of the address-high register stores nothing to the EEPROM. -/
theorem eepromByte_addressHigh {s t : State} {w : Word} (a : Nat)
    (ht : t.env = s.env.afterWrite Config.offAh w) : t.eepromByte a = s.eepromByte a := by
  simp only [State.eepromByte, ht]
  cases s.env <;> rfl

/-- Settles O21: an address-high word and an unlock word are one write that changes no latch beside
the phase, and neither is a write command. -/
theorem plainWordFrame : Obligations.PlainWordFrame := by
  intro s t h y x hx hexec
  obtain ⟨⟨p, rfl⟩, hmem⟩ : (∃ p, t = { s.writeReg x.2.1 x.2.2 with phase := p }) ∧
      ∀ a, t.eepromByte a = s.eepromByte a := by
    simp only [List.mem_cons, List.not_mem_nil, or_false] at hx
    obtain rfl | rfl | rfl | rfl := hx
    case inl | inr.inl =>
      obtain ⟨-, rfl⟩ | ⟨-, -, rfl⟩ := issueWord_next hexec <;>
        exact ⟨⟨_, rfl⟩, fun a => eepromByte_addressHigh a rfl⟩
    all_goals
      obtain ⟨-, rfl⟩ := rawCommand_next hexec
      exact ⟨⟨_, rfl⟩, fun a => eepromByte_command rfl fun _ _ hw => absurd hw (by decide)⟩
  exact ⟨rfl, rfl, rfl, rfl, rfl, rfl, rfl, rfl, rfl, rfl, rfl, rfl, rfl, rfl, rfl, rfl, rfl, hmem⟩

end Sys2Proof.Machine

/-! ## The steps of an operation, phase by phase (10_state.md R26, 43_operations.md R184 to R194) -/

namespace Sys2Proof.Machine

/-- In a phase of an operation the step is the engine's step in that phase. -/
theorem step_in_phase {s : State} {p : Phase} {op : Op} (hp : s.phase = p)
    (hop : p.operation = some op) : step s = .next (operationStep { s with phase := p }) := by
  subst hp
  exact step_of_operation hop

/-- The phases that can follow a phase in one step (10_state.md R26). -/
def Phase.followers (p : Phase) : List Phase :=
  match p with
  | .idle => [.idle, .rdAhR, .wrAhR, .fault]
  | .rdAhR => [.rdAhW]
  | .rdAhW => [.rdCmdR]
  | .rdCmdR => [.rdCmdW]
  | .rdCmdW => [.rdPoll]
  | .rdPoll => [.rdSleep, .rdDataR]
  | .rdSleep => [.fault, .rdPoll]
  | .rdDataR => [.idle]
  | .wrAhR => [.wrAhW]
  | .wrAhW => [.wrEnR]
  | .wrEnR => [.wrEnW]
  | .wrEnW => [.wrEnPoll]
  | .wrEnPoll => [.wrEnSleep, .wrDataW]
  | .wrEnSleep => [.fault, .wrEnPoll]
  | .wrDataW => [.wrCmdR]
  | .wrCmdR => [.wrCmdW]
  | .wrCmdW => [.wrPoll]
  | .wrPoll => [.wrSleep, .idle]
  | .wrSleep => [.fault, .wrPoll]
  | .fault => []

theorem idleStep_followers {s t : State} (hp : s.phase = .idle) (h : IdleStep s t) :
    t.phase ∈ Phase.idle.followers := by
  cases h with
  | quiet => simp [Phase.followers, hp]
  | pause us => simp [Phase.followers, hp]
  | write off w => simp [Phase.followers, hp]
  | accept op addr data hl => cases op <;> simp [Phase.followers, firstPhase]
  | reject op addr data => simp [Phase.followers]

theorem operationStep_followers {s : State} (hidle : s.phase ≠ .idle) (hfault : s.phase ≠ .fault) :
    (operationStep s).phase ∈ s.phase.followers := by
  cases hp : s.phase <;> simp only [operationStep, engineMicroStep, hp]
  case idle => exact absurd hp hidle
  case fault => exact absurd hp hfault
  case rdPoll | wrEnPoll | wrPoll =>
    obtain ⟨-, he⟩ | ⟨-, he⟩ := pollAttempt_cases s _ _ <;> rw [he] <;> simp [Phase.followers]
  case rdSleep | wrEnSleep | wrSleep =>
    obtain ⟨-, he⟩ | ⟨-, he⟩ := pollSleep_cases s _ _ <;> rw [he] <;> simp [Phase.followers]
  all_goals exact List.mem_singleton.2 rfl

theorem step_followers {s t : State} (h : step s = .next t) : t.phase ∈ s.phase.followers := by
  obtain ⟨hp, u, hu⟩ | ⟨hidle, hfault, rfl⟩ := step_cases h
  · rw [hp]
    exact idleStep_followers (s := s.withClientOf u) hp hu
  · exact operationStep_followers hidle hfault

/-- A phase that follows one phase only is entered from there. -/
theorem step_source {s t : State} {p q : Phase} (h : step s = .next t) (ht : t.phase = q)
    (hq : ∀ p', q ∈ p'.followers → p' = p) : s.phase = p :=
  hq s.phase (ht ▸ step_followers h)

/-- A step from a poll that does not go to sleep has seen the busy flag, bit 18, clear. -/
theorem poll_clear_of_step {s t : State} {kind : PollKind} (h : step s = .next t)
    (hp : s.phase = kind.pollPhase) (ht : t.phase ≠ kind.sleepPhase) :
    (s.answer Config.offCmd).getLsbD 18 = false := by
  rw [step_poll hp] at h
  cases h
  obtain ⟨-, he⟩ | ⟨hb, -⟩ := pollAttempt_cases s kind.sleepPhase kind.onClear
  · exact absurd (congrArg State.phase he) ht
  · rwa [← busy_eq]

/-- Settles O24: the two steps are the engine's in their phases, and the low byte of a legal
address's word is 0. -/
theorem readAddressHighUpdate : Obligations.ReadAddressHighUpdate := by
  refine fun s => ⟨fun hp => step_in_phase (op := .read) hp rfl,
    fun hp => step_in_phase (op := .read) hp rfl, fun hl => ?_⟩
  rw [ahRdByte_of_legal hl]
  exact BitVec.or_zero

/-- Settles O25: the only arrow into `RD_CMD_R` is that of `RD_AH_W`, which writes 0x26C. -/
theorem readCommandIssue : Obligations.ReadCommandIssue := by
  refine ⟨fun s t h ht => ?_, fun s => ⟨fun hp => step_in_phase (op := .read) hp rfl,
    fun hp => step_in_phase (op := .read) hp rfl⟩⟩
  have hp : s.phase = .rdAhW := step_source h ht fun p => by cases p <;> decide
  rw [step_in_phase (op := .read) hp rfl] at h
  cases h
  exact ⟨hp, _, rfl⟩

/-- Settles O28: the only arrow into `WR_DATA_W` is that of the write-enable poll's clear answer. -/
theorem writeDataPhase : Obligations.WriteDataPhase := by
  refine ⟨fun s hp => step_in_phase (op := .write) hp rfl, fun s t h ht => ?_⟩
  have hp : s.phase = .wrEnPoll := step_source h ht fun p => by cases p <;> decide
  exact ⟨hp, poll_clear_of_step (kind := .writeEnable) h hp (ht ▸ nofun)⟩

/-- Settles O29: the only arrow into `RD_DATA_R` is that of the read poll's clear answer. -/
theorem readDataPhase : Obligations.ReadDataPhase := by
  refine ⟨fun s hp => step_in_phase (op := .read) hp rfl, fun s t h ht => ?_⟩
  have hp : s.phase = .rdPoll := step_source h ht fun p => by cases p <;> decide
  exact ⟨hp, poll_clear_of_step (kind := .read) h hp (ht ▸ nofun)⟩

/-- The engine writes its own latches and the port only. -/
theorem operationStep_frame (s : State) : operationStep s = { s with
    tmp := (operationStep s).tmp, result := (operationStep s).result,
    attempt := (operationStep s).attempt, outcome := (operationStep s).outcome,
    history := (operationStep s).history, env := (operationStep s).env,
    phase := (operationStep s).phase } := by
  obtain ⟨phase⟩ := s
  cases phase <;> simp only [operationStep, engineMicroStep]
  case rdPoll | wrEnPoll | wrPoll =>
    obtain ⟨-, he⟩ | ⟨-, he⟩ := pollAttempt_cases _ _ _ <;> rw [he] <;> rfl
  case rdSleep | wrEnSleep | wrSleep =>
    obtain ⟨-, he⟩ | ⟨-, he⟩ := pollSleep_cases _ _ _ <;> rw [he] <;> rfl
  all_goals rfl

/-- Settles O44: a step of an operation is a step of the engine. -/
theorem operationUndisturbed : Obligations.OperationUndisturbed := by
  intro s t h hidle
  obtain ⟨hp, -⟩ | ⟨-, -, rfl⟩ := step_cases h
  · exact absurd hp hidle
  · rw [operationStep_frame]
    exact ⟨rfl, rfl, rfl, rfl, rfl, rfl, rfl, rfl, rfl, rfl, rfl⟩

end Sys2Proof.Machine

/-! ## Whole operations (43_operations.md R183, R190, R193, R196) -/

namespace Sys2Proof.Machine

/-- The state of a poll that saw the busy words `bs`, each slept after, and then the clear word `v`,
with the answers `as` left. -/
def State.afterPoll (s : State) (bs : List Word) (v : Word) (as : List Word) : State :=
  { s with
    history := s.history ++ busyPolls bs ++ [.rd Config.offCmd v], env := .oracle as,
    attempt := s.attempt + bs.length + 1 }

/-- A clear attempt is one read of the command register; the poll has ended. -/
theorem step_poll_clear {s : State} {kind : PollKind} {v : Word} {as : List Word}
    (hp : s.phase = kind.pollPhase) (he : s.env = .oracle (v :: as)) (hv : busy v = false) :
    step s = .next (kind.onClear { s with
      history := s.history ++ [.rd Config.offCmd v], env := .oracle as,
      attempt := s.attempt + 1 }) := by
  have ha : s.answer Config.offCmd = v := by
    rw [State.answer, he]
    rfl
  obtain ⟨-, hstep⟩ := (pollAttempt_cases s kind.sleepPhase kind.onClear).resolve_left
    fun h => by simp [ha, hv] at h
  rw [step_poll hp, hstep, State.afterRead, ha, he]
  rfl

/-- A poll that sees the busy flag clear within its 100 attempts ends there (R163). -/
theorem runSteps_poll {s : State} {kind : PollKind} {bs as : List Word} {v : Word}
    (hp : s.phase = kind.pollPhase) (h0 : s.attempt = 0) (he : s.env = .oracle (bs ++ v :: as))
    (hn : bs.length < 100) (hb : ∀ b ∈ bs, busy b = true) (hv : busy v = false) :
    runSteps (2 * bs.length + 1) s = .next (kind.onClear (s.afterPoll bs v as)) := by
  have hbusy := runSteps_busyPolls bs hp he hb (by omega)
  have hclear : step (s.afterBusy bs (v :: as)) = .next (kind.onClear (s.afterPoll bs v as)) :=
    step_poll_clear hp rfl hv
  exact (runSteps_add hbusy).trans (runSteps_next hclear)

/-- Settles O32: five steps to the poll, the poll, and the read of the data register. -/
theorem readSucceeds : Obligations.ReadSucceeds := by
  intro s addr data ah cmd v d bs as rest h hl he hn hb hv
  have hpoll := (runSteps_add (runSteps_read_to_poll h hl he)).trans
    (runSteps_poll (kind := .read) rfl rfl rfl hn hb hv)
  have hdata := (runSteps_add (m := 1) hpoll).trans
    (runSteps_next (step_in_phase (op := .read) rfl rfl))
  have hsteps : 7 + 2 * bs.length = 5 + (2 * bs.length + 1) + 1 := by omega
  rw [hsteps]
  obtain ⟨-, hc, -⟩ := h
  exact ⟨_, hdata, rfl, rfl, rfl, congrArg (· + 1) (Nat.zero_add bs.length), rfl, rfl, hc,
    List.append_assoc _ [_] [_]⟩

/-- A legal Write reaches its write-enable poll by its acceptance and four transactions
(43_operations.md R190 to R192). -/
theorem runSteps_write_to_enable {s : State} {addr data ah cmd : Word} {as : List Word}
    {rest : List Input} (h : Presents s .write addr data rest) (hl : legal addr = true)
    (he : s.env = .oracle (ah :: cmd :: as)) :
    runSteps 5 s = .next { s with
      inputs := rest, reqOp := .write, reqAddr := addr, reqData := data,
      history := s.history ++ writePrefix addr ah cmd, env := .oracle as, tmp := cmd,
      attempt := 0, phase := .wrEnPoll } := by
  have hhist : s.history ++ writePrefix addr ah cmd =
      s.history ++ [.rd Config.offAh ah] ++ [.wr Config.offAh (ahWord ah (ahWrByte addr))] ++
        [.rd Config.offCmd cmd] ++ [.wr Config.offCmd (cmdWrenWord cmd)] := by
    simp only [writePrefix, List.append_assoc, List.cons_append, List.nil_append]
  rw [runSteps_next (step_presents_legal h hl), hhist, he]
  iterate 4 rw [runSteps_next (step_of_operation (op := .write) rfl)]
  rfl

/-- From the end of the write-enable poll a Write reaches its write-commit poll by three
transactions (43_operations.md R194, R195). -/
theorem runSteps_data_to_commit {s : State} {cmd : Word} {as : List Word}
    (hp : s.phase = .wrDataW) (he : s.env = .oracle (cmd :: as)) :
    runSteps 3 s = .next { s with
      history := s.history ++ writeMiddle s.reqAddr s.reqData cmd, env := .oracle as, tmp := cmd,
      attempt := 0, phase := .wrPoll } := by
  have hhist : s.history ++ writeMiddle s.reqAddr s.reqData cmd =
      s.history ++ [.wr Config.offData s.reqData] ++ [.rd Config.offCmd cmd] ++
        [.wr Config.offCmd (cmdWriteWord cmd s.reqAddr)] := by
    simp only [writeMiddle, List.append_assoc, List.cons_append, List.nil_append]
  rw [runSteps_next (step_in_phase (op := .write) hp rfl), hhist, he]
  iterate 2 rw [runSteps_next (step_of_operation (op := .write) rfl)]
  rfl

/-- The state of a legal Write at its write-commit poll (43_operations.md R195), with the answers
`as` left. -/
def State.atCommitPoll (s : State) (addr data ah c1 v1 c2 : Word) (bs as : List Word)
    (rest : List Input) : State :=
  { s with
    inputs := rest, reqOp := .write, reqAddr := addr, reqData := data,
    history := s.history ++ writePrefix addr ah c1 ++ busyPolls bs ++ [.rd Config.offCmd v1] ++
      writeMiddle addr data c2,
    env := .oracle as, tmp := c2, attempt := 0, phase := .wrPoll }

theorem runSteps_write_to_commit {s : State} {addr data ah c1 v1 c2 : Word} {bs as : List Word}
    {rest : List Input} (h : Presents s .write addr data rest) (hl : legal addr = true)
    (he : s.env = .oracle (ah :: c1 :: (bs ++ v1 :: c2 :: as)))
    (hn : bs.length < 100) (hb : ∀ b ∈ bs, busy b = true) (hv : busy v1 = false) :
    runSteps (9 + 2 * bs.length) s =
      .next (s.atCommitPoll addr data ah c1 v1 c2 bs as rest) := by
  have hpoll := (runSteps_add (runSteps_write_to_enable h hl he)).trans
    (runSteps_poll (kind := .writeEnable) rfl rfl rfl hn hb hv)
  have hcommit := (runSteps_add hpoll).trans (runSteps_data_to_commit rfl rfl)
  have hsteps : 9 + 2 * bs.length = 5 + (2 * bs.length + 1) + 3 := by omega
  exact hsteps ▸ hcommit

/-- Settles O34: the way to the write-commit poll, and that poll. -/
theorem writeSucceeds : Obligations.WriteSucceeds := by
  intro s addr data ah c1 v1 c2 v2 bs1 bs2 as rest h hl he hn1 hb1 hv1 hn2 hb2 hv2
  have hend := (runSteps_add (runSteps_write_to_commit h hl he hn1 hb1 hv1)).trans
    (runSteps_poll (kind := .writeCommit) rfl rfl rfl hn2 hb2 hv2)
  have hsteps : 10 + 2 * bs1.length + 2 * bs2.length =
      9 + 2 * bs1.length + (2 * bs2.length + 1) := by omega
  rw [hsteps]
  obtain ⟨-, hc, -⟩ := h
  exact ⟨_, hend, rfl, rfl, rfl, congrArg (· + 1) (Nat.zero_add bs2.length), rfl, rfl, hc,
    rfl⟩

/-- Settles O35: five steps to the write-enable poll, and its timeout. -/
theorem writeEnableTimesOut : Obligations.WriteEnableTimesOut := by
  intro s addr data ah cmd bs as rest h hl he hn hb
  have htimeout := (runSteps_add (m := 200) (runSteps_write_to_enable h hl he)).trans
    (runSteps_timeout (kind := .writeEnable) rfl rfl rfl hb hn)
  exact ⟨_, htimeout, rfl, rfl, rfl, rfl, step_fault rfl⟩

/-- Settles O36: the way to the write-commit poll, and its timeout. -/
theorem writeCommitTimesOut : Obligations.WriteCommitTimesOut := by
  intro s addr data ah c1 v1 c2 bs1 bs2 as rest h hl he hn1 hb1 hv1 hn2 hb2
  have htimeout := (runSteps_add (runSteps_write_to_commit h hl he hn1 hb1 hv1)).trans
    (runSteps_timeout (kind := .writeCommit) rfl rfl rfl hb2 hn2)
  have hsteps : 209 + 2 * bs1.length = 9 + 2 * bs1.length + 200 := by omega
  rw [hsteps]
  exact ⟨_, htimeout, rfl, rfl, rfl, rfl, step_fault rfl⟩

end Sys2Proof.Machine

/-! ## The client's invariant (44_client_sequences.md R210) -/

namespace Sys2Proof.Machine

/-- The operation whose outcome a client sequence waits for. -/
def Client.awaits (c : Client) : Option Op :=
  if c.awaitsWord then some .read else if c.awaitsWrite then some .write else Option.none

/-- The engine holds the outcome of a successful operation: a Read's word, or a Write's bare `Ok`
(10_state.md R27). -/
def State.Answered (s : State) (op : Op) : Prop :=
  match op with
  | .read => ∃ v, s.outcome = some (.okValue v)
  | .write => s.outcome = some .ok

/-- The operation a client waits for is in progress, has faulted, or has ended as awaited. -/
def State.Serves (s : State) (op : Op) : Prop :=
  s.phase.operation = some op ∨ s.phase = .fault ∨ (s.phase = .idle ∧ s.Answered op)

theorem awaits_eq_read {c : Client} : c.awaits = some .read ↔ c.awaitsWord = true := by
  cases c <;> simp [Client.awaits, Client.awaitsWord, Client.awaitsWrite]

theorem awaits_eq_write {c : Client} : c.awaits = some .write ↔ c.awaitsWrite = true := by
  cases c <;> simp [Client.awaits, Client.awaitsWord, Client.awaitsWrite]

theorem clientInv_iff {s : State} :
    ClientInv s ↔ ∀ op, s.client.awaits = some op → s.Serves op := by
  have hread : s.Serves .read ↔ s.phase.ofRead = true ∨ s.phase = .fault ∨
      (s.phase = .idle ∧ ∃ v, s.outcome = some (.okValue v)) := or_congr_left operation_eq_read
  have hwrite : s.Serves .write ↔ s.phase.ofWrite = true ∨ s.phase = .fault ∨
      (s.phase = .idle ∧ s.outcome = some .ok) := or_congr_left operation_eq_write
  constructor
  · rintro ⟨hword, hend⟩ op hop
    cases op with
    | read => exact hread.2 (hword (awaits_eq_read.1 hop))
    | write => exact hwrite.2 (hend (awaits_eq_write.1 hop))
  · intro h
    exact ⟨fun hc => hread.1 (h .read (awaits_eq_read.2 hc)),
      fun hc => hwrite.1 (h .write (awaits_eq_write.2 hc))⟩

/-- In `IDLE` the invariant says that the awaited outcome is there. -/
theorem ClientInv.answered {s : State} (h : ClientInv s) (hp : s.phase = .idle) {op : Op}
    (hop : s.client.awaits = some op) : s.Answered op := by
  obtain hrun | hfault | ⟨-, hout⟩ := clientInv_iff.1 h op hop
  · rw [hp] at hrun
    cases hrun
  · rw [hp] at hfault
    cases hfault
  · exact hout

/-- A step of an operation goes on with it, faults, or ends it with the operation's outcome. -/
theorem operationStep_serves {s : State} {op : Op} (hop : s.phase.operation = some op) :
    (operationStep s).Serves op := by
  cases hp : s.phase <;> rw [hp] at hop <;> cases hop <;>
    simp only [operationStep, engineMicroStep, hp]
  case rdPoll | wrEnPoll =>
    obtain ⟨-, he⟩ | ⟨-, he⟩ := pollAttempt_cases s _ _ <;> rw [he] <;> exact .inl rfl
  case wrPoll =>
    obtain ⟨-, he⟩ | ⟨-, he⟩ := pollAttempt_cases s _ _ <;> rw [he]
    · exact .inl rfl
    · exact .inr (.inr ⟨rfl, rfl⟩)
  case rdSleep | wrEnSleep | wrSleep =>
    obtain ⟨-, he⟩ | ⟨-, he⟩ := pollSleep_cases s _ _ <;> rw [he]
    · exact .inr (.inl rfl)
    · exact .inl rfl
  case rdDataR => exact .inr (.inr ⟨rfl, _, rfl⟩)
  all_goals exact .inl rfl

theorem ClientInv.operationStep {s : State} (h : ClientInv s) (hidle : s.phase ≠ .idle)
    (hfault : s.phase ≠ .fault) : ClientInv (operationStep s) := by
  refine clientInv_iff.2 fun op hop => operationStep_serves ?_
  rw [operationStep_frame] at hop
  obtain hrun | hf | ⟨hi, -⟩ := clientInv_iff.1 h op hop
  · exact hrun
  · exact absurd hf hfault
  · exact absurd hi hidle

/-! What the client's moves leave behind. -/

/-- A sequence waits only behind the request it has just presented, and the client stops only after
its own fatal error. -/
def ClientMove.Orderly (m : ClientMove) : Prop :=
  match m with
  | .present p u =>
    ∀ op, u.client.awaits = some op → ∃ addr data, p = .req (encodeReq op addr data)
  | .portWrite _ _ u => u.client.awaits = none
  | .pause _ u => u.client.awaits = none
  | .quiet u => u.client.awaits = none
  | .stop f => f = .clientStopped
  | .refuse _ => True

/-- A presented packet behind which nothing waits. -/
theorem orderly_present {s : State} (p : Packet) (hc : s.client.awaits = none) :
    (ClientMove.present p s).Orderly := by
  intro op hop
  cases hc.symm.trans hop

/-- A presented request behind which its own client waits. -/
theorem orderly_request {s : State} {op : Op} (addr data : Word)
    (hc : s.client.awaits = some op) :
    (ClientMove.present (.req (encodeReq op addr data)) s).Orderly := by
  intro op' hop
  cases hc.symm.trans hop
  exact ⟨addr, data, rfl⟩

theorem orderly_dumpNext (s : State) (a last : Nat) : (s.dumpNext a last).Orderly := by
  unfold State.dumpNext
  split
  · exact orderly_request _ _ rfl
  · exact rfl

theorem orderly_restoreNext (s : State) (addr : Word) (count : Nat) :
    (s.restoreNext addr count).Orderly := by
  unfold State.restoreNext
  split
  · exact orderly_request _ _ rfl
  · exact rfl

theorem orderly_restoreVerify (s : State) (addr w : Word) (count : Nat) (r : Word) :
    (s.restoreVerify addr w count r).Orderly := by
  unfold State.restoreVerify
  split
  · exact orderly_restoreNext s _ _
  · exact rfl

theorem orderly_liveNext (s : State) (a last n : Nat) (buf : List Byte) :
    (s.liveNext a last n buf).Orderly := by
  unfold State.liveNext
  split
  · exact orderly_request _ _ rfl
  · exact rfl

theorem orderly_liveStart (s : State) (w0 : Word) : (s.liveStart w0).Orderly := by
  unfold State.liveStart
  split
  · exact orderly_liveNext s _ _ _ _
  · exact rfl

theorem orderly_rawWrite {s : State} (off w : Word) (hc : s.client.awaits = none) :
    (s.rawWrite off w).Orderly := by
  unfold State.rawWrite
  split
  · split
    · cases decodeCmd w with
      | ok i => exact orderly_present _ hc
      | error e =>
        cases s.env.refuses w with
        | true => trivial
        | false => exact hc
    · exact hc
  · trivial

theorem orderly_fileDecode (s : State) : s.fileDecode.Orderly := by
  unfold State.fileDecode
  split <;> exact rfl

theorem orderly_start {s : State} (x : Input) (hc : s.client.awaits = none) :
    (s.start x).Orderly := by
  cases x with
  | request bits => exact orderly_present _ hc
  | rawWrite off w => exact orderly_rawWrite off w hc
  | pause us => exact hc
  | dump => exact orderly_request _ _ rfl
  | restore =>
    exact orderly_rawWrite (s := { s with inputs := restoreSequence.tail ++ s.inputs })
      Config.offCmd Config.unlockWord1 hc
  | restoreLoop => exact orderly_restoreNext s _ _
  | decodeLive => exact orderly_request _ _ rfl
  | decodeFile => exact orderly_fileDecode s

theorem orderly_nextInput {s : State} (hc : s.client.awaits = none) : s.nextInput.Orderly := by
  unfold State.nextInput
  split
  · exact hc
  · next x rest _ =>
    cases s.ready x with
    | true => exact orderly_start (s := { s with inputs := rest }) x hc
    | false => exact rfl

theorem withWord_of_outcome {s : State} {v : Word} (h : s.outcome = some (.okValue v))
    (k : Word → ClientMove) : s.withWord k = k v := by
  simp only [State.withWord, State.wordResponse, h]

theorem orderly_withWord {s : State} {k : Word → ClientMove} (h : s.Answered .read)
    (hk : ∀ v, (k v).Orderly) : (s.withWord k).Orderly := by
  obtain ⟨v, hv⟩ := h
  exact withWord_of_outcome hv k ▸ hk v

/-- A client whose awaited outcome is there makes an orderly move. -/
theorem orderly_clientMove {s : State}
    (h : ∀ op, s.client.awaits = some op → s.Answered op) : (clientMove s).Orderly := by
  unfold clientMove
  cases hc : s.client <;> rw [hc] at h
  case stopped => exact rfl
  case none => exact orderly_nextInput (hc ▸ rfl)
  case dumpHead => exact orderly_withWord (h _ rfl) fun v => orderly_dumpNext _ _ _
  case dumpWord => exact orderly_withWord (h _ rfl) fun v => orderly_dumpNext _ _ _
  case restoreWritten =>
    have hout : s.outcome = some .ok := h .write rfl
    simp only [hout, if_true]
    exact orderly_request _ _ rfl
  case restoreCheck => exact orderly_withWord (h _ rfl) fun v => orderly_restoreVerify _ _ _ _ v
  case liveHead => exact orderly_withWord (h _ rfl) fun v => orderly_liveStart s v
  case liveWord => exact orderly_withWord (h _ rfl) fun v => orderly_liveNext _ _ _ _ _

theorem ClientInv.orderly {s : State} (h : ClientInv s) (hp : s.phase = .idle) :
    (clientMove s).Orderly :=
  orderly_clientMove fun _ hop => h.answered hp hop

/-! What becomes of an orderly move. -/

theorem clientInv_of_awaits_none {s : State} (h : s.client.awaits = none) : ClientInv s :=
  clientInv_iff.2 fun op hop => by cases h.symm.trans hop

/-- A request packet runs as the acceptance of its operation. -/
theorem run_request (op : Op) (addr data : Word) (u : State) :
    (ClientMove.present (.req (encodeReq op addr data)) u).run = u.accept op addr data := by
  simp only [ClientMove.run, decode, decodeReq_encodeReq]
  cases op <;> rfl

/-- The client is none of the engine's fields. -/
theorem idleStep_client {s t : State} (h : IdleStep s t) : t.client = s.client := by
  cases h <;> rfl

/-- A presented packet keeps the invariant: what waits behind a request is served by its acceptance
or sees the fault. -/
theorem clientInv_of_present {p : Packet} {u t : State} (hp : u.phase = .idle)
    (ho : (ClientMove.present p u).Orderly) (h : (ClientMove.present p u).run = .next t) :
    ClientInv t := by
  have hclient : t.client = u.client := by
    simp only [ClientMove.run] at h
    split at h
    · exact idleStep_client (exec_idle hp h)
    · cases h
  refine clientInv_iff.2 fun op hop => ?_
  obtain ⟨addr, data, rfl⟩ := ho op (hclient ▸ hop)
  rw [run_request] at h
  obtain ⟨-, ⟨-, rfl⟩ | ⟨-, rfl⟩⟩ := accept_next h
  · exact .inl (firstPhase_operation op)
  · exact .inr (.inl rfl)

/-- The client's move leaves the engine in its phase. -/
theorem present_phase {s u : State} {p : Packet} (h : clientMove s = .present p u) :
    u.phase = s.phase := by
  have hmap := clientMove_map s
  rw [h] at hmap
  injection hmap with _ hu
  exact (congrArg State.phase hu).symm

/-- An orderly move run in `IDLE` establishes the invariant. -/
theorem ClientMove.Orderly.clientInv {m : ClientMove} {t : State} (ho : m.Orderly)
    (hp : ∀ p u, m = .present p u → u.phase = .idle) (h : m.run = .next t) : ClientInv t := by
  cases m with
  | present p u => exact clientInv_of_present (hp p u rfl) ho h
  | stop f => cases h
  | refuse r => cases h
  | _ =>
    cases h
    exact clientInv_of_awaits_none ho

/-- Settles O46: a sequence waits only behind a request it has just presented, the operation's steps
carry it to its outcome, and the outcome stands until the client moves. -/
theorem clientInvKept : Obligations.ClientInvKept := by
  intro s t h hstep
  obtain ⟨hp, -⟩ | ⟨hidle, hfault, rfl⟩ := step_cases hstep
  · rw [step_idle hp] at hstep
    exact (h.orderly hp).clientInv (fun p u hm => (present_phase hm).trans hp) hstep
  · exact h.operationStep hidle hfault

/-- No instruction faults in `IDLE`. -/
theorem exec_idle_ne_fault {s : State} (i : Instr) (f : Fault) (hp : s.phase = .idle) :
    exec i s ≠ .fault f := by
  cases i with
  | read addr data =>
    obtain ⟨u, hu⟩ := accept_idle (op := .read) (addr := addr) (data := data) hp
    exact fun h => by cases hu.symm.trans h
  | write addr data =>
    obtain ⟨u, hu⟩ := accept_idle (op := .write) (addr := addr) (data := data) hp
    exact fun h => by cases hu.symm.trans h
  | _ =>
    rw [exec_idle_word hp rfl]
    exact nofun

/-- A move run in `IDLE` faults only where the client itself stops. -/
theorem stop_of_run_fault {m : ClientMove} {f : Fault}
    (hp : ∀ p u, m = .present p u → u.phase = .idle) (h : m.run = .fault f) : m = .stop f := by
  cases m with
  | present p u =>
    simp only [ClientMove.run] at h
    split at h
    · exact absurd h (exec_idle_ne_fault _ f (hp p u rfl))
    · cases h
  | stop f' =>
    cases h
    rfl
  | _ => cases h

/-- Settles O52: an orderly client stops only after its own error. -/
theorem responseAlwaysThere : Obligations.ResponseAlwaysThere := by
  intro s h hstep
  by_cases hp : s.phase = .idle
  · have ho := h.orderly hp
    rw [step_idle hp] at hstep
    rw [stop_of_run_fault (fun p u hm => (present_phase hm).trans hp) hstep] at ho
    cases ho
  · by_cases hfault : s.phase = .fault
    · rw [step_fault hfault] at hstep
      cases hstep
    · rw [step_operation hp hfault] at hstep
      cases hstep

end Sys2Proof.Machine

/-! ## The image: records and header (44_client_sequences.md R211, R213, R236, R238) -/

namespace Sys2Proof.Machine

theorem wordBytes_wordOfBytes (b0 b1 b2 b3 : Byte) :
    wordBytes (wordOfBytes b0 b1 b2 b3) = [b0, b1, b2, b3] := by
  have h1 : (b3 ++ b2 ++ b1 ++ b0).extractLsb' 8 8 = b1 :=
    (BitVec.extractLsb'_append_eq_of_le (by decide)).trans BitVec.extractLsb'_append_eq_right
  have h2 : (b3 ++ b2 ++ b1 ++ b0).extractLsb' 16 8 = b2 :=
    (BitVec.extractLsb'_append_eq_of_le (by decide)).trans
      ((BitVec.extractLsb'_append_eq_of_le (by decide)).trans BitVec.extractLsb'_append_eq_right)
  have h3 : (b3 ++ b2 ++ b1 ++ b0).extractLsb' 24 8 = b3 :=
    (BitVec.extractLsb'_append_eq_of_le (by decide)).trans
      ((BitVec.extractLsb'_append_eq_of_le (by decide)).trans
        BitVec.extractLsb'_append_eq_left)
  simp only [wordBytes, wordOfBytes, h1, h2, h3, BitVec.extractLsb'_append_eq_right]

theorem getElem?_eq_byteAt {bytes : List Byte} {i : Nat} (h : i < bytes.length) :
    bytes[i]? = some (byteAt bytes i) := by
  simp only [byteAt, List.getElem?_eq_getElem h, Option.getD_some]

theorem byteAt_drop (n : Nat) (bytes : List Byte) (i : Nat) :
    byteAt (bytes.drop n) i = byteAt bytes (n + i) := by
  simp only [byteAt, List.getElem?_drop]

/-- `count` records are taken, the `i`-th from byte `6 i` on. -/
theorem takeRecords_eq (count : Nat) (bytes : List Byte) :
    takeRecords count bytes = (List.range count).map fun i => recordAt (bytes.drop (6 * i)) := by
  induction count generalizing bytes with
  | zero => rfl
  | succ k ih =>
    simp only [takeRecords, ih, List.range_succ_eq_map, List.map_cons, List.map_map,
      List.drop_drop, Function.comp_def, Nat.mul_succ, Nat.add_comm _ 6]
    rfl

theorem decodeRecords_eq (table : List Byte) : decodeRecords table =
    (List.range (table.length / 6)).map fun i => recordAt (table.drop (6 * i)) :=
  takeRecords_eq (table.length / 6) table

/-- The fields of a record's header (R236). -/
theorem record_header_fields (r : Record) :
    r.regOffset = r.header.toNat % 1024 * 4 ∧ r.portCode.toNat = r.header.toNat / 1024 := by
  have := r.header.isLt
  simp only [Record.regOffset, Record.portCode, BitVec.extractLsb'_toNat,
    Nat.shiftRight_eq_div_pow]
  omega

/-- Settles O58: the bytes of a record are those of the table from byte `6 i` on, and `6 i + 5` lies
inside the table because `i` is below `length / 6`. -/
theorem recordsOfTable : Obligations.RecordsOfTable := by
  intro table
  rw [decodeRecords_eq]
  refine ⟨by simp, fun i r hr => ?_⟩
  rw [List.getElem?_map, Option.map_eq_some_iff] at hr
  obtain ⟨k, hk, rfl⟩ := hr
  obtain ⟨hi, rfl⟩ := List.getElem?_eq_some_iff.1 hk
  simp only [List.length_range] at hi
  have hbyte (j : Nat) (hj : j < 6) : table[6 * i + j]? = some (byteAt table (6 * i + j)) :=
    getElem?_eq_byteAt (by omega)
  simp only [List.getElem_range]
  refine ⟨?_, ?_, fun j hj => ?_, record_header_fields _⟩
  · rw [recordAt, BitVec.extractLsb'_append_eq_right, byteAt_drop]
    exact hbyte 0 (by decide)
  · rw [recordAt, BitVec.extractLsb'_append_eq_left, byteAt_drop]
    exact hbyte 1 (by decide)
  · rw [recordAt, wordBytes_wordOfBytes, Nat.add_assoc, hbyte (2 + j) (by omega)]
    simp only [byteAt_drop]
    interval_cases j <;> rfl

theorem signatureOk_iff (w0 : Word) : signatureOk w0 = true ↔ w0 &&& 0xFF#32 = 0x5A#32 := by
  have hmask : (0xFF#32).toNat = 2 ^ 8 - 1 := rfl
  rw [signatureOk, beq_iff_eq, ← BitVec.toNat_inj, ← BitVec.toNat_inj, BitVec.extractLsb'_toNat,
    BitVec.toNat_and, hmask, Nat.and_two_pow_sub_one_eq_mod, Nat.shiftRight_zero]
  rfl

theorem tableLength_eq (w0 : Word) : tableLength w0 = w0.toNat / 65536 := by
  rw [tableLength, BitVec.toNat_ushiftRight, Nat.shiftRight_eq_div_pow]

theorem roundup4_eq (n : Nat) : roundup4 n = (n + 3) / 4 * 4 := by
  rw [roundup4, Nat.shiftRight_eq_div_pow, Nat.shiftLeft_eq]

/-- DecodeFile of a buffer that holds its first word: the signature, then the length. -/
theorem decodeFile_of_word (w0 : Word) (table : List Byte) :
    decodeFile (wordBytes w0 ++ table) =
      if signatureOk w0 then
        if tableLength w0 ≤ table.length then .ok (decodeRecords (table.take (tableLength w0)))
        else .error .truncatedImage
      else .error .wrongSignature := by
  simp only [wordBytes, List.cons_append, List.nil_append, decodeFile, wordOfBytes_bytes]

/-- A step with DecodeFile at the head of the stream is its one move; it needs the source only. -/
theorem clientMove_decodeFile {s : State} {rest : List Input} (hc : s.client = .none)
    (hu : s.sourceUsable = true) (hi : s.inputs = .decodeFile :: rest) :
    clientMove s = State.fileDecode { s with inputs := rest } :=
  clientMove_ready hc hi hu

/-- Settles O60: the masks as arithmetic, the tests of DecodeFile in order, and its one quiet
move. -/
theorem imageHeader : Obligations.ImageHeader := by
  refine ⟨fun w0 => ⟨signatureOk_iff w0, tableLength_eq w0⟩, fun n => ?_, fun w0 table => ?_,
    fun s rest hp hc hu hi =>
      ⟨fun records hd => step_quiet hp ?_, fun why hd => step_quiet hp ?_⟩⟩
  · rw [roundup4_eq]
    exact ⟨by omega, by omega, fun k hk => by omega⟩
  · rw [decodeFile_of_word]
    refine ⟨fun hsig => ?_, fun hsig hlen => ?_, fun hsig hlen => ?_⟩
    · rw [hsig, if_neg Bool.false_ne_true]
    · rw [hsig, if_pos rfl, if_neg (Nat.not_le.2 hlen)]
    · rw [hsig, if_pos rfl, if_pos hlen]
  · rw [clientMove_decodeFile hc hu hi]
    simp only [State.fileDecode, hd, State.finish, hc]
  · rw [clientMove_decodeFile hc hu hi]
    simp only [State.fileDecode, hd, State.fail]

end Sys2Proof.Machine

/-! ## Operations against the reference controller (95_test_vectors.md section 2, log entry 14) -/

namespace Sys2Proof.Machine

/-- Some number of steps leads from one state to the other. -/
def Reaches (s t : State) : Prop :=
  ∃ n, runSteps n s = .next t

theorem reaches_of_step {s t : State} (h : step s = .next t) : Reaches s t :=
  ⟨1, runSteps_next h⟩

theorem Reaches.trans {s t u : State} (h : Reaches s t) (h' : Reaches t u) : Reaches s u := by
  obtain ⟨n, hn⟩ := h
  obtain ⟨m, hm⟩ := h'
  exact ⟨n + m, (runSteps_add hn).trans hm⟩

/-! The controller takes a command word. -/

/-- A command word changes the command register, restarts the busy count, and loads the data
register or stores to the EEPROM. -/
theorem RefCtl.command_frame (c : RefCtl) (w : Word) : c.command w =
    { c with r260 := w &&& ~~~Config.busyMask, pending := c.polls, r264 := (c.command w).r264,
             mem := (c.command w).mem } := by
  unfold RefCtl.command
  split
  · rfl
  · split <;> rfl

@[simp] theorem RefCtl.command_stuck (c : RefCtl) (w : Word) : (c.command w).stuck = c.stuck := by
  rw [RefCtl.command_frame]

@[simp] theorem RefCtl.command_pending (c : RefCtl) (w : Word) :
    (c.command w).pending = c.polls := by
  rw [RefCtl.command_frame]

@[simp] theorem RefCtl.command_r26C (c : RefCtl) (w : Word) : (c.command w).r26C = c.r26C := by
  rw [RefCtl.command_frame]

/-- The busy count before a command word does not matter. -/
theorem RefCtl.command_afterRead (c : RefCtl) (off w : Word) :
    (c.afterRead off).command w = c.command w := by
  unfold RefCtl.afterRead
  split <;> rfl

theorem RefCtl.command_read {c : RefCtl} {w : Word} (h : cmdCode w = Config.codeRead) :
    (c.command w).r264 = c.mem.readWord (4 * c.index w) := by
  unfold RefCtl.command
  rw [if_pos h]

/-- The controller after a command: it has taken the word, and is clear. -/
def RefCtl.commanded (c : RefCtl) (w : Word) : RefCtl :=
  { c.command w with pending := 0 }

/-- The stored command word never shows the busy flag. -/
theorem RefCtl.busy_command (c : RefCtl) (w : Word) : busy (c.command w).r260 = false := by
  have hmask : ~~~Config.busyMask &&& Config.busyMask = 0#32 := by decide
  rw [RefCtl.command_frame, busy, BitVec.and_assoc, hmask, BitVec.and_zero]
  rfl

/-- A controller that is not stuck shows the busy flag while it counts. -/
theorem RefCtl.busy_status {c : RefCtl} (hstuck : c.stuck = false) (hb : busy c.r260 = false) :
    busy c.status = decide (0 < c.pending) := by
  unfold RefCtl.status
  by_cases hpos : 0 < c.pending
  · have hbit : Config.busyMask.getLsbD 18 = true := by decide
    rw [if_pos (.inr hpos), busy_eq, BitVec.getLsbD_or, hbit, Bool.or_true, decide_eq_true hpos]
  · rw [if_neg (by simp [hstuck, hpos]), hb, decide_eq_false hpos]

/-- The word index that an address selects, with the byte the engine leaves in 0x26C. -/
def CtlMode.wordIndex (mode : CtlMode) (byte : Byte) (addr : Word) : Nat :=
  match mode with
  | .a => (addr.extractLsb' 15 1 ++ addr.extractLsb' 2 13).toNat
  | .b => (byte ++ addr.extractLsb' 15 1 ++ addr.extractLsb' 2 13).toNat

theorem RefCtl.index_encodeCmd (c : RefCtl) (keep : BitVec 11) (code : BitVec 3) (addr : Word) :
    c.index (encodeCmd keep (addr.extractLsb' 15 1) code (addr.extractLsb' 2 13)) =
      c.mode.wordIndex (ahByte c.r26C) addr := by
  obtain ⟨-, hb13, -, -, hlo⟩ := encodeCmd_fields keep (addr.extractLsb' 15 1) code
    (addr.extractLsb' 2 13)
  rw [RefCtl.index_eq, hb13, hlo]
  cases c.mode <;> rfl

/-- Below 64 KiB mode A selects the addressed word. -/
theorem wordIndex_a {byte : Byte} {addr : Word} (hal : addr.toNat % 4 = 0)
    (hlt : addr.toNat < 0x10000) : 4 * CtlMode.a.wordIndex byte addr = addr.toNat := by
  rw [CtlMode.wordIndex,
    BitVec.extractLsb'_append_extractLsb'_eq_extractLsb' (show 15 = 2 + 13 from rfl),
    BitVec.extractLsb'_toNat, Nat.shiftRight_eq_div_pow]
  omega

/-! The environment between operations. -/

/-- The reference controller in a mode, never stuck and busy for fewer than 100 polls, with the
EEPROM content `m`. -/
structure RefCtl.Serving (c : RefCtl) (mode : CtlMode) (m : Memory) : Prop where
  mode_eq : c.mode = mode
  not_stuck : c.stuck = false
  polls_lt : c.polls < 100
  mem_eq : c.mem = m

/-- The environment is such a controller. -/
def Environment.Holds (e : Environment) (mode : CtlMode) (m : Memory) : Prop :=
  ∃ c, e = .refCtl c ∧ c.Serving mode m

theorem RefCtl.Serving.commanded {c : RefCtl} {mode : CtlMode} {m : Memory}
    (h : c.Serving mode m) (w : Word) : (c.commanded w).Serving mode (c.command w).mem := by
  obtain ⟨hmode, hstuck, hpolls, -⟩ := h
  rw [RefCtl.commanded, RefCtl.command_frame]
  exact ⟨hmode, hstuck, hpolls, rfl⟩

/-- A command word that is no write command stores nothing. -/
theorem RefCtl.Serving.commanded_of_ne {c : RefCtl} {mode : CtlMode} {m : Memory} {w : Word}
    (h : c.Serving mode m) (hw : cmdCode w ≠ Config.codeWrite) :
    (c.commanded w).Serving mode m := by
  have hmem : (c.command w).mem = m := by rw [RefCtl.command_mem, if_neg hw, h.mem_eq]
  exact hmem ▸ h.commanded w

theorem Environment.Holds.eepromByte {s : State} {mode : CtlMode} {m : Memory}
    (h : s.env.Holds mode m) (a : Nat) : s.eepromByte a = some (m.readByte a) := by
  obtain ⟨c, hc, hs⟩ := h
  simp only [State.eepromByte, hc, hs.mem_eq]

/-! The busy poll. -/

theorem answer_cmd {s : State} {c : RefCtl} (he : s.env = .refCtl c) :
    s.answer Config.offCmd = c.status := by
  rw [State.answer, he]
  rfl

/-- A poll of a controller that is not stuck counts its busy polls down. -/
theorem afterRead_cmd {s : State} {c : RefCtl} (he : s.env = .refCtl c)
    (hstuck : c.stuck = false) : s.afterRead Config.offCmd = { s with
      history := s.history ++ [.rd Config.offCmd c.status],
      env := .refCtl { c with pending := c.pending - 1 } } := by
  rw [State.afterRead, answer_cmd he, he, Environment.afterRead, RefCtl.afterRead,
    if_pos ⟨rfl, hstuck⟩]

/-- The state with another trace, poll counter and controller. -/
def State.polled (s : State) (h : List Event) (n : Nat) (c : RefCtl) : State :=
  { s with history := h, attempt := n, env := .refCtl c }

/-- A controller that has counted down answers the poll clear. -/
theorem reaches_poll_clear {kind : PollKind} {c : RefCtl} {s : State}
    (hp : s.phase = kind.pollPhase) (he : s.env = .refCtl c) (hstuck : c.stuck = false)
    (hb : busy c.r260 = false) (h0 : c.pending = 0) :
    ∃ h n, Reaches s (kind.onClear (s.polled h n { c with pending := 0 })) := by
  have hclear : busy (s.answer Config.offCmd) = false := by
    rw [answer_cmd he, RefCtl.busy_status hstuck hb, h0]
    rfl
  obtain ⟨-, hstep⟩ := (pollAttempt_cases s kind.sleepPhase kind.onClear).resolve_left
    fun h => by simp [hclear] at h
  rw [afterRead_cmd he hstuck, h0] at hstep
  exact ⟨_, _, reaches_of_step ((step_poll hp).trans (congrArg Host.Outcome.next hstep))⟩

/-- While the controller counts, a poll is busy, and its sleep leads back to the poll. -/
theorem reaches_poll_busy {kind : PollKind} {c : RefCtl} {s : State}
    (hp : s.phase = kind.pollPhase) (he : s.env = .refCtl c) (hstuck : c.stuck = false)
    (hb : busy c.r260 = false) (hpos : 0 < c.pending) (hn : s.attempt + 1 < 100) :
    ∃ h, Reaches s (s.polled h (s.attempt + 1) { c with pending := c.pending - 1 }) := by
  have hbusy : busy (s.answer Config.offCmd) = true := by
    rw [answer_cmd he, RefCtl.busy_status hstuck hb, decide_eq_true hpos]
  obtain ⟨-, hstep⟩ := (pollAttempt_cases s kind.sleepPhase kind.onClear).resolve_right
    fun h => by simp [hbusy] at h
  rw [afterRead_cmd he hstuck] at hstep
  have hround := (reaches_of_step ((step_poll hp).trans (congrArg Host.Outcome.next hstep))).trans
    (reaches_of_step (step_sleep_of_lt rfl hn))
  rw [← hp] at hround
  exact ⟨_, hround⟩

/-- A poll that the controller will answer clear within the 100 attempts ends there (42_busy_poll.md
R163). -/
theorem reaches_poll {kind : PollKind} {c : RefCtl} {s : State} (hp : s.phase = kind.pollPhase)
    (he : s.env = .refCtl c) (hstuck : c.stuck = false) (hb : busy c.r260 = false)
    (hn : s.attempt + c.pending < 100) :
    ∃ h n, Reaches s (kind.onClear (s.polled h n { c with pending := 0 })) := by
  induction hpend : c.pending generalizing s c with
  | zero => exact reaches_poll_clear hp he hstuck hb hpend
  | succ p ih =>
    obtain ⟨h, hround⟩ := reaches_poll_busy hp he hstuck hb (by omega) (by omega)
    have hleft : s.attempt + 1 + (c.pending - 1) < 100 := by omega
    obtain ⟨h', n, hend⟩ := ih
      (s := s.polled h (s.attempt + 1) { c with pending := c.pending - 1 })
      hp rfl hstuck hb hleft (by simp only [hpend, Nat.add_sub_cancel])
    exact ⟨h', n, hround.trans hend⟩

/-! A command: its word written over a fresh read of 0x260, and its poll. -/

/-- The phase that reads the command register for the command of a poll of each kind
(10_state.md R26). -/
def PollKind.readPhase (kind : PollKind) : Phase :=
  match kind with
  | .read => .rdCmdR
  | .writeEnable => .wrEnR
  | .writeCommit => .wrCmdR

/-- The phase that writes it back. -/
def PollKind.writePhase (kind : PollKind) : Phase :=
  match kind with
  | .read => .rdCmdW
  | .writeEnable => .wrEnW
  | .writeCommit => .wrCmdW

/-- The command word before a poll of each kind (41_command_encoder.md R141 to R143). -/
def PollKind.command (kind : PollKind) (old addr : Word) : Word :=
  match kind with
  | .read => cmdReadWord old addr
  | .writeEnable => cmdWrenWord old
  | .writeCommit => cmdWriteWord old addr

theorem step_command_read {s : State} {kind : PollKind} (hp : s.phase = kind.readPhase) :
    step s = .next (s.latchTmp Config.offCmd kind.writePhase) := by
  cases kind <;>
    rw [step_operation (hp ▸ nofun) (hp ▸ nofun), operationStep, engineMicroStep, hp] <;> rfl

theorem step_command_write {s : State} {kind : PollKind} (hp : s.phase = kind.writePhase) :
    step s = .next ((s.writeReg Config.offCmd (kind.command s.tmp s.reqAddr)).startPoll
      kind.pollPhase) := by
  cases kind <;> rw [step_operation (hp ▸ nofun) (hp ▸ nofun), operationStep, hp] <;> rfl

/-- The state with another `TMP`. -/
def State.withTmp (s : State) (tmp : Word) : State :=
  { s with tmp := tmp }

/-- A command ends with its poll: the controller has taken the command word, and is clear. -/
theorem reaches_command {kind : PollKind} {c : RefCtl} {s : State}
    (hp : s.phase = kind.readPhase) (he : s.env = .refCtl c) (hstuck : c.stuck = false)
    (hpolls : c.polls < 100) :
    ∃ old h n, Reaches s (kind.onClear ((s.withTmp old).polled h n
      (c.commanded (kind.command old s.reqAddr)))) := by
  have hissue := (reaches_of_step (step_command_read hp)).trans
    (reaches_of_step (step_command_write rfl))
  have henv : (((s.latchTmp Config.offCmd kind.writePhase).writeReg Config.offCmd
      (kind.command (s.answer Config.offCmd) s.reqAddr)).startPoll kind.pollPhase).env =
        .refCtl (c.command (kind.command (s.answer Config.offCmd) s.reqAddr)) := by
    change (s.env.afterRead Config.offCmd).afterWrite Config.offCmd _ = _
    rw [he]
    exact congrArg Environment.refCtl (c.command_afterRead _ _)
  obtain ⟨h, n, hpoll⟩ := reaches_poll (kind := kind) rfl henv
    ((c.command_stuck _).trans hstuck) (c.busy_command _)
    (by rw [c.command_pending]; exact (Nat.zero_add _).trans_lt hpolls)
  refine ⟨s.answer Config.offCmd, h, n, hissue.trans ?_⟩
  cases kind <;> exact hpoll

/-! Whole operations. -/

/-- What no step of an operation changes: the request and the client's fields (43_operations.md
R180); all else is blanked. -/
def State.standing (s : State) : State :=
  { s with phase := .idle, tmp := 0#32, result := 0#32, attempt := 0, outcome := none,
           history := [], env := .oracle [] }

theorem operationStep_standing (s : State) : (operationStep s).standing = s.standing := by
  rw [operationStep_frame]
  rfl

/-- The operation of `s` has come to the phase `p` in the state `t`, with the controller `c`. -/
structure Along (s t : State) (p : Phase) (c : RefCtl) : Prop where
  reaches : Reaches s t
  phase : t.phase = p
  env : t.env = .refCtl c
  standing : t.standing = s.standing

theorem Along.reqAddr {s t : State} {p : Phase} {c : RefCtl} (h : Along s t p c) :
    t.reqAddr = s.reqAddr :=
  (congrArg State.reqAddr h.standing :)

theorem Along.reqData {s t : State} {p : Phase} {c : RefCtl} (h : Along s t p c) :
    t.reqData = s.reqData :=
  (congrArg State.reqData h.standing :)

theorem along_refl {s : State} {p : Phase} {c : RefCtl} (hp : s.phase = p)
    (he : s.env = .refCtl c) : Along s s p c :=
  ⟨⟨0, rfl⟩, hp, he, rfl⟩

theorem Along.step {s t : State} {p q : Phase} {c c' : RefCtl} {op : Op} (h : Along s t p c)
    (hop : p.operation = some op) (hq : (operationStep t).phase = q)
    (he : (operationStep t).env = .refCtl c') : Along s (operationStep t) q c' :=
  ⟨h.reaches.trans (reaches_of_step (step_of_operation (h.phase ▸ hop))), hq, he,
    (operationStep_standing t).trans h.standing⟩

/-- The phase after a poll of each kind that saw the busy flag clear. -/
def PollKind.clearPhase (kind : PollKind) : Phase :=
  match kind with
  | .read => .rdDataR
  | .writeEnable => .wrDataW
  | .writeCommit => .idle

theorem Along.command {s t : State} {kind : PollKind} {c : RefCtl} (h : Along s t kind.readPhase c)
    (hstuck : c.stuck = false) (hpolls : c.polls < 100) :
    ∃ old u, Along s (kind.onClear u) kind.clearPhase
      (c.commanded (kind.command old s.reqAddr)) := by
  obtain ⟨old, hist, n, hcommand⟩ := reaches_command h.phase h.env hstuck hpolls
  rw [h.reqAddr] at hcommand
  refine ⟨old, _, h.reaches.trans hcommand, ?_, ?_, Eq.trans ?_ h.standing⟩
  all_goals cases kind <;> rfl

/-- The address-high byte an operation writes (40_address_splitter.md R124, R125). -/
def addressHighByte (op : Op) (addr : Word) : Byte :=
  match op with
  | .read => ahRdByte addr
  | .write => ahWrByte addr

/-- The kind of an operation's first command. -/
def firstCommand (op : Op) : PollKind :=
  match op with
  | .read => .read
  | .write => .writeEnable

/-- The controller after the address-high update. -/
def RefCtl.addressed (c : RefCtl) (op : Op) (addr : Word) : RefCtl :=
  { c with r26C := ahWord c.r26C (addressHighByte op addr) }

theorem ahByte_addressed (c : RefCtl) (op : Op) (addr : Word) :
    ahByte (c.addressed op addr).r26C = addressHighByte op addr := by
  obtain ⟨-, hbyte⟩ := encodeAh_fields (c.r26C.extractLsb' 8 24) (addressHighByte op addr)
  rw [RefCtl.addressed, ahWord_eq]
  exact hbyte

/-- The address-high update is two steps (43_operations.md R184, R191). -/
theorem along_addressed {op : Op} {s : State} {c : RefCtl} (hp : s.phase = firstPhase op)
    (he : s.env = .refCtl c) :
    ∃ t, Along s t (firstCommand op).readPhase (c.addressed op s.reqAddr) := by
  obtain ⟨phase⟩ := s
  subst hp he
  cases op with
  | read =>
    exact ⟨_, ((along_refl rfl rfl).step (op := .read) (q := .rdAhW) (c' := c) rfl rfl rfl).step
      (op := .read) rfl rfl rfl⟩
  | write =>
    exact ⟨_, ((along_refl rfl rfl).step (op := .write) (q := .wrAhW) (c' := c) rfl rfl rfl).step
      (op := .write) rfl rfl rfl⟩

/-- The read of the data register ends a Read with the controller's word (43_operations.md R188). -/
theorem Along.readData {s t : State} {c : RefCtl} (h : Along s t .rdDataR c) :
    Along s t.readData .idle c ∧ t.readData.outcome = some (.okValue c.r264) := by
  have hstep : operationStep t = t.readData := by
    simp only [operationStep, engineMicroStep, h.phase]
  have hanswer : t.answer Config.offData = c.r264 := by
    rw [State.answer, h.env]
    rfl
  refine ⟨hstep ▸ h.step (op := .read) rfl (hstep ▸ rfl) ?_, ?_⟩
  · rw [hstep]
    exact congrArg (Environment.afterRead · Config.offData) h.env
  · rw [← hanswer]
    rfl

/-- The controller with the word of a Write in its data register. -/
def RefCtl.loaded (c : RefCtl) (w : Word) : RefCtl :=
  { c with r264 := w }

/-- The data write hands the controller the word of the request (43_operations.md R194). -/
theorem Along.writeData {s t : State} {c : RefCtl} (h : Along s t .wrDataW c) :
    Along s t.writeData .wrCmdR (c.loaded s.reqData) := by
  have hstep : operationStep t = t.writeData := by
    simp only [operationStep, engineMicroStep, h.phase]
  refine hstep ▸ h.step (op := .write) rfl (hstep ▸ rfl) ?_
  rw [hstep, ← h.reqData]
  exact congrArg (Environment.afterWrite · Config.offData t.reqData) h.env

/-! What the controller does for an operation. -/

theorem RefCtl.Serving.addressed {c : RefCtl} {mode : CtlMode} {m : Memory}
    (h : c.Serving mode m) (op : Op) (addr : Word) : (c.addressed op addr).Serving mode m :=
  ⟨h.mode_eq, h.not_stuck, h.polls_lt, h.mem_eq⟩

theorem RefCtl.Serving.loaded {c : RefCtl} {mode : CtlMode} {m : Memory}
    (h : c.Serving mode m) (w : Word) : (c.loaded w).Serving mode m :=
  ⟨h.mode_eq, h.not_stuck, h.polls_lt, h.mem_eq⟩

/-- The read command loads the word that the address selects, and stores nothing. -/
theorem RefCtl.Serving.read {c : RefCtl} {mode : CtlMode} {m : Memory} (h : c.Serving mode m)
    (old addr : Word) : (c.commanded (cmdReadWord old addr)).Serving mode m ∧
      (c.commanded (cmdReadWord old addr)).r264 =
        m.readWord (4 * mode.wordIndex (ahByte c.r26C) addr) := by
  have hcode : cmdCode (cmdReadWord old addr) = Config.codeRead := by
    rw [cmdReadWord_eq, cmdCode_encodeCmd]
  refine ⟨h.commanded_of_ne (hcode ▸ by decide), (RefCtl.command_read hcode).trans ?_⟩
  rw [cmdReadWord_eq, RefCtl.index_encodeCmd, h.mode_eq, h.mem_eq]

/-- The write-enable command stores nothing. -/
theorem RefCtl.Serving.writeEnable {c : RefCtl} {mode : CtlMode} {m : Memory}
    (h : c.Serving mode m) (old : Word) : (c.commanded (cmdWrenWord old)).Serving mode m :=
  h.commanded_of_ne (by rw [cmdWrenWord_eq, cmdCode_encodeCmd]; decide)

/-- The write command stores the data register at the word that the address selects. -/
theorem RefCtl.Serving.write {c : RefCtl} {mode : CtlMode} {m : Memory} (h : c.Serving mode m)
    (old addr : Word) : (c.commanded (cmdWriteWord old addr)).Serving mode
      (m.writeWord (4 * mode.wordIndex (ahByte c.r26C) addr) c.r264) := by
  have hcode : cmdCode (cmdWriteWord old addr) = Config.codeWrite := by
    rw [cmdWriteWord_eq, cmdCode_encodeCmd]
  have hmem : (c.command (cmdWriteWord old addr)).mem =
      m.writeWord (4 * mode.wordIndex (ahByte c.r26C) addr) c.r264 := by
    rw [RefCtl.command_mem, if_pos hcode, cmdWriteWord_eq, RefCtl.index_encodeCmd, h.mode_eq,
      h.mem_eq]
  exact hmem ▸ h.commanded _

/-- An operation from `s` has ended in `t` with the response `r`: the client's fields stand, and the
environment holds the EEPROM content `m`. -/
structure Ended (s t : State) (r : Response) (mode : CtlMode) (m : Memory) : Prop where
  reaches : Reaches s t
  phase : t.phase = .idle
  outcome : t.outcome = some r
  env : t.env.Holds mode m
  standing : t.standing = s.standing

/-- A Read answers with the word that its address selects, and changes no EEPROM byte. -/
theorem ended_read {s : State} {mode : CtlMode} {m : Memory} (hp : s.phase = .rdAhR)
    (he : s.env.Holds mode m) :
    ∃ t, Ended s t
      (.okValue (m.readWord (4 * mode.wordIndex (ahRdByte s.reqAddr) s.reqAddr))) mode m := by
  obtain ⟨c, he, hserv⟩ := he
  obtain ⟨t, ht⟩ := along_addressed (op := .read) hp he
  obtain ⟨old, u, hu⟩ := ht.command (kind := .read) hserv.not_stuck hserv.polls_lt
  obtain ⟨hend, hout⟩ := hu.readData
  obtain ⟨hafter, hword⟩ := (hserv.addressed .read s.reqAddr).read old s.reqAddr
  rw [ahByte_addressed] at hword
  exact ⟨_, hend.reaches, hend.phase, hword ▸ hout, ⟨_, hend.env, hafter⟩, hend.standing⟩

/-- A Write stores its data at the word that its address selects. -/
theorem ended_write {s : State} {mode : CtlMode} {m : Memory} (hp : s.phase = .wrAhR)
    (he : s.env.Holds mode m) :
    ∃ t, Ended s t .ok mode
      (m.writeWord (4 * mode.wordIndex (ahWrByte s.reqAddr) s.reqAddr) s.reqData) := by
  obtain ⟨c, he, hserv⟩ := he
  obtain ⟨t, ht⟩ := along_addressed (op := .write) hp he
  obtain ⟨old, u, hu⟩ := ht.command (kind := .writeEnable) hserv.not_stuck hserv.polls_lt
  have hloaded := ((hserv.addressed .write s.reqAddr).writeEnable old).loaded s.reqData
  obtain ⟨old', v, hv⟩ := hu.writeData.command (kind := .writeCommit) hloaded.not_stuck
    hloaded.polls_lt
  have hbyte : ahByte (((c.addressed .write s.reqAddr).commanded (cmdWrenWord old)).loaded
      s.reqData).r26C = ahWrByte s.reqAddr :=
    (congrArg ahByte (RefCtl.command_r26C _ _)).trans (ahByte_addressed c .write s.reqAddr)
  exact ⟨_, hv.reaches, hv.phase, rfl, ⟨_, hv.env, hbyte ▸ hloaded.write old' s.reqAddr⟩,
    hv.standing⟩

end Sys2Proof.Machine

/-! ## Client sequences against the reference controller in mode A (44_client_sequences.md R214,
R220, R222, log entry 14) -/

namespace Sys2Proof.Machine

/-- A legal address below 64 KiB, where mode A selects the addressed word. -/
structure LowAddress (addr : Word) : Prop where
  aligned : addr.toNat % 4 = 0
  lt : addr.toNat < 0x10000

theorem LowAddress.legal {addr : Word} (h : LowAddress addr) : legal addr = true :=
  legal_iff.2 ⟨by have := h.lt; omega, h.aligned⟩

theorem toNat_four_mul {i : Nat} (h : i < 0x4000) : (BitVec.ofNat 32 (4 * i)).toNat = 4 * i :=
  Nat.mod_eq_of_lt (by omega)

theorem lowAddress_four_mul {i : Nat} (h : i < 0x4000) : LowAddress (BitVec.ofNat 32 (4 * i)) := by
  have := toNat_four_mul h
  exact ⟨by omega, by omega⟩

/-- The request that the client presents in `s`, with its own fields as in `u`, has been served in
`t`: the response is `r`, the EEPROM holds `m`. -/
structure Served (s u t : State) (r : Response) (m : Memory) : Prop where
  reaches : Reaches s t
  phase : t.phase = .idle
  outcome : t.outcome = some r
  env : t.env.Holds .a m
  client : t.client = u.client
  inputs : t.inputs = u.inputs
  sink : t.sink = u.sink
  source : t.source = u.source

/-- The state with a request latched and its operation begun (43_operations.md R181). -/
def State.accepted (s : State) (op : Op) (addr data : Word) : State :=
  { s with reqOp := op, reqAddr := addr, reqData := data, phase := firstPhase op }

/-- The operation of a presented request serves the client that presented it. -/
theorem Ended.served {s u t : State} {op : Op} {addr data : Word} {r : Response} {m : Memory}
    (h : Ended (u.accepted op addr data) t r .a m) (hs : s.phase = .idle) (hu : u.phase = .idle)
    (hm : clientMove s = .present (.req (encodeReq op addr data)) u) (hl : legal addr = true) :
    Served s u t r m := by
  have hstep : step s = .next (u.accepted op addr data) := by
    rw [step_idle hs, hm, run_request, accept_legal hu hl]
    rfl
  exact ⟨(reaches_of_step hstep).trans h.reaches, h.phase, h.outcome, h.env,
    (congrArg State.client h.standing :), (congrArg State.inputs h.standing :),
    (congrArg State.sink h.standing :), (congrArg State.source h.standing :)⟩

/-- A client's Read of a low address returns the EEPROM's word there. -/
theorem served_read {s u : State} {addr : Word} {client : Client} {m : Memory}
    (hs : s.phase = .idle) (hu : u.phase = .idle) (hm : clientMove s = u.requestRead addr client)
    (he : u.env.Holds .a m) (ha : LowAddress addr) :
    ∃ t, Served s { u with client := client } t (.okValue (m.readWord addr.toNat)) m := by
  obtain ⟨t, ht⟩ := ended_read (s := State.accepted { u with client := client } .read addr 0#32)
    rfl he
  rw [State.accepted, wordIndex_a ha.aligned ha.lt] at ht
  exact ⟨t, ht.served hs hu hm ha.legal⟩

/-- A client's Write of a low address stores its word there. -/
theorem served_write {s u : State} {addr w : Word} {client : Client} {m : Memory}
    (hs : s.phase = .idle) (hu : u.phase = .idle)
    (hm : clientMove s = u.requestWrite addr w client) (he : u.env.Holds .a m)
    (ha : LowAddress addr) :
    ∃ t, Served s { u with client := client } t .ok (m.writeWord addr.toNat w) := by
  obtain ⟨t, ht⟩ := ended_write (s := State.accepted { u with client := client } .write addr w)
    rfl he
  rw [State.accepted, wordIndex_a ha.aligned ha.lt] at ht
  exact ⟨t, ht.served hs hu hm ha.legal⟩

/-- A client sequence that moves in `s` has ended in `t` with the report `r`. -/
structure Finished (s t : State) (r : Report) (m : Memory) : Prop where
  reaches : Reaches s t
  phase : t.phase = .idle
  client : t.client = .none
  report : t.report = some r
  env : t.env.Holds .a m

theorem Finished.of_reaches {s t u : State} {r : Report} {m : Memory} (h : Reaches s t)
    (hend : Finished t u r m) : Finished s u r m :=
  ⟨h.trans hend.reaches, hend.phase, hend.client, hend.report, hend.env⟩

theorem finished_of_finish {s u : State} {r : Report} {m : Memory} (hs : s.phase = .idle)
    (hu : u.phase = .idle) (hm : clientMove s = u.finish r) (he : u.env.Holds .a m) :
    Finished s { u with client := .none, report := some r } r m :=
  ⟨reaches_of_step (step_quiet hs hm), hu, rfl, rfl, he⟩

/-! Dump. -/

theorem wordBytes_readWord (m : Memory) (a : Nat) :
    wordBytes (m.readWord a) = (List.range' a 4).map m.readByte :=
  wordBytes_wordOfBytes _ _ _ _

/-- An emitted word of the EEPROM, and the bytes after it. -/
theorem emit_readWord_append {s : State} {m : Memory} {a n : Nat} :
    (s.emit (m.readWord a)).sink ++ (List.range' (a + 4) n).map m.readByte =
      s.sink ++ (List.range' a (n + 4)).map m.readByte := by
  rw [State.emit, wordBytes_readWord, List.append_assoc, ← List.map_append, List.range'_append_1,
    Nat.add_comm 4]

/-- Dump's loop emits the remaining `k` words, from word `i` on. -/
theorem finished_dumpNext (k : Nat) {s u : State} {i last : Nat} {m : Memory}
    (hs : s.phase = .idle) (hu : u.phase = .idle) (hm : clientMove s = u.dumpNext (4 * i) last)
    (he : u.env.Holds .a m) (hlast : last + 4 = 4 * (i + k)) (hlt : i + k ≤ 0x4000) :
    ∃ t, Finished s t .dumped m ∧ t.inputs = u.inputs ∧
      t.sink = u.sink ++ (List.range' (4 * i) (4 * k)).map m.readByte := by
  induction k generalizing s u i with
  | zero =>
    rw [State.dumpNext, if_neg (by omega)] at hm
    exact ⟨_, finished_of_finish hs hu hm he, rfl, (List.append_nil _).symm⟩
  | succ k ih =>
    rw [State.dumpNext, if_pos (by omega)] at hm
    have hi : i < 0x4000 := by omega
    obtain ⟨t, ht⟩ := served_read hs hu hm he (lowAddress_four_mul hi)
    obtain ⟨hreach, hphase, hout, henv, hclient, hinputs, hsink, -⟩ := ht
    rw [toNat_four_mul hi] at hout
    have hmove : clientMove t = (t.emit (m.readWord (4 * i))).dumpNext (4 * (i + 1)) last := by
      simp only [clientMove, hclient, withWord_of_outcome hout, Nat.mul_succ]
    obtain ⟨t', hend, hinputs', hsink'⟩ := ih hphase (u := t.emit (m.readWord (4 * i))) hphase
      hmove henv (by omega) (by omega)
    refine ⟨t', .of_reaches hreach hend, hinputs'.trans hinputs, hsink'.trans ?_⟩
    rw [Nat.mul_succ, Nat.mul_succ, emit_readWord_append, hsink]

/-- Dump of an image whose table has `n` bytes. -/
theorem finished_dump {s : State} {rest : List Input} {n : Nat} {m : Memory}
    (hs : s.phase = .idle) (hc : s.client = .none) (hu : s.portUsable = true)
    (hsink : s.sinkUsable = true) (hi : s.inputs = .dump :: rest) (he : s.env.Holds .a m)
    (hn : n = if signatureOk (m.readWord 0) then tableLength (m.readWord 0) else 0)
    (hle : n ≤ 0xFFFC) :
    ∃ t, Finished s t .dumped m ∧ t.inputs = rest ∧
      t.sink = s.sink ++ (List.range (4 + roundup4 n)).map m.readByte := by
  have hready : s.ready .dump = true := by simp only [State.ready, hu, hsink, Bool.and_self]
  obtain ⟨t, ht⟩ := served_read hs (u := { s with inputs := rest }) hs
    (clientMove_ready hc hi hready) he (lowAddress_four_mul (i := 0) (by decide))
  obtain ⟨hreach, hphase, hout, henv, hclient, hinputs, hsame, -⟩ := ht
  have hmove : clientMove t = (t.emit (m.readWord 0)).dumpNext (4 * 1) (roundup4 n) := by
    simp only [clientMove, hclient, hn]
    exact withWord_of_outcome hout _
  have hround := roundup4_eq n
  obtain ⟨t', hend, hinputs', hsink'⟩ := finished_dumpNext (roundup4 n / 4) hphase
    (u := t.emit (m.readWord 0)) hphase hmove henv (by omega) (by omega)
  refine ⟨t', .of_reaches hreach hend, hinputs'.trans hinputs, hsink'.trans ?_⟩
  rw [show 4 * (roundup4 n / 4) = roundup4 n by omega, emit_readWord_append, hsame,
    List.range_eq_range', Nat.add_comm]

/-- Settles O57: word 0 is read and emitted, then the loop emits the table's words up to the
rounded length; an unusable sink makes the input not ready. -/
theorem dumpCopiesImage : Obligations.DumpCopiesImage := by
  refine ⟨fun s c n rest hs hc hu hsink hi he hmode hstuck hpolls hn hle => ?_,
    fun s rest hs hc hsink hi => ?_⟩
  · have hholds : s.env.Holds .a c.mem := ⟨c, he, hmode, hstuck, hpolls, rfl⟩
    obtain ⟨t, ⟨⟨k, hk⟩, hphase, hclient, hreport, henv⟩, hinputs, hout⟩ :=
      finished_dump hs hc hu hsink hi hholds hn hle
    exact ⟨k, t, hk, hphase, hclient, hreport, hinputs, hout,
      fun a => (henv.eepromByte a).trans (hholds.eepromByte a).symm⟩
  · have hready : s.ready .dump = false := by simp only [State.ready, hsink, Bool.and_false]
    exact ⟨_, step_unready hs hc hi hready, rfl, rfl, hs, rfl, rfl, rfl⟩

/-! Restore. -/

/-- Words stored one after the other, from word `i` on. -/
def Memory.writeWords (m : Memory) (i : Nat) (ws : List Word) : Memory :=
  match ws with
  | [] => m
  | w :: rest => Memory.writeWords (m.writeWord (4 * i) w) (i + 1) rest

theorem Memory.readByte_writeWords_other {ws : List Word} {m : Memory} {i a : Nat}
    (h : a < 4 * i ∨ 4 * (i + ws.length) ≤ a) :
    (m.writeWords i ws).readByte a = m.readByte a := by
  induction ws generalizing m i with
  | nil => rfl
  | cons w rest ih =>
    rw [List.length_cons] at h
    rw [Memory.writeWords, ih (by omega), Memory.readByte_writeWord_other _ _ _ _ (by omega)]

/-- The bytes of a stored word. -/
theorem Memory.readByte_writeWord_same {m : Memory} {a j : Nat} (w : Word) (hm : m.wf)
    (ha : a + 3 < eepromSize) (hj : j < 4) :
    some ((m.writeWord a w).readByte (a + j)) = (wordBytes w)[j]? := by
  have hbytes := wordBytes_readWord (m.writeWord a w) a
  rw [Memory.readWord_writeWord_same m a w hm ha] at hbytes
  simp [hbytes, hj]

theorem Memory.readByte_writeWords_same {ws : List Word} {m : Memory} {i k j : Nat} {w : Word}
    (hm : m.wf) (hlt : 4 * (i + ws.length) ≤ eepromSize) (hw : ws[k]? = some w) (hj : j < 4) :
    some ((m.writeWords i ws).readByte (4 * (i + k) + j)) = (wordBytes w)[j]? := by
  induction ws generalizing m i k with
  | nil => cases hw
  | cons v rest ih =>
    rw [List.length_cons] at hlt
    cases k with
    | zero =>
      cases hw
      rw [Memory.writeWords, Memory.readByte_writeWords_other (.inl (by omega))]
      exact Memory.readByte_writeWord_same w hm (by omega) hj
    | succ k =>
      have hend := ih (Memory.wf_writeWord m (4 * i) v hm (by omega)) (i := i + 1) (by omega) hw
      rwa [Nat.add_right_comm] at hend

/-- Fewer than four bytes end Restore (decision D18). -/
theorem restoreNext_short {s : State} (addr : Word) (count : Nat) (h : s.source.length < 4) :
    s.restoreNext addr count = State.finish { s with source := [] } (.restored count) := by
  unfold State.restoreNext
  split
  · next b0 b1 b2 b3 rest hsource =>
    rw [hsource] at h
    simp only [List.length_cons] at h
    omega
  · rfl

theorem restoreNext_word {s : State} (addr : Word) (count : Nat) {w : Word} {rest : List Byte}
    (h : s.source = wordBytes w ++ rest) : s.restoreNext addr count =
      State.requestWrite { s with source := rest } addr w (.restoreWritten addr w count) := by
  simp only [State.restoreNext, h, wordBytes, List.cons_append, List.nil_append, wordOfBytes_bytes]

/-- Restore's loop writes and verifies the remaining words, from word `i` on. -/
theorem finished_restoreNext {ws : List Word} {tail : List Byte} {s u : State} {i : Nat}
    {m : Memory} (hs : s.phase = .idle) (hu : u.phase = .idle)
    (hm : clientMove s = u.restoreNext (BitVec.ofNat 32 (4 * i)) i) (he : u.env.Holds .a m)
    (hsource : u.source = ws.flatMap wordBytes ++ tail) (htail : tail.length < 4) (hwf : m.wf)
    (hlt : i + ws.length ≤ 0x4000) :
    ∃ t, Finished s t (.restored (i + ws.length)) (m.writeWords i ws) ∧ t.inputs = u.inputs ∧
      t.source = [] := by
  induction ws generalizing s u i m with
  | nil =>
    rw [restoreNext_short _ _ (hsource ▸ htail)] at hm
    exact ⟨_, finished_of_finish (u := { u with source := [] }) hs hu hm he, rfl, rfl⟩
  | cons w ws ih =>
    rw [List.length_cons] at hlt ⊢
    have hi : i < 0x4000 := by omega
    have ha := lowAddress_four_mul hi
    rw [List.flatMap_cons, List.append_assoc] at hsource
    rw [restoreNext_word _ _ hsource] at hm
    obtain ⟨t, hreach, hphase, hout, henv, hclient, hinputs, -, hsrc⟩ :=
      served_write hs (u := { u with source := ws.flatMap wordBytes ++ tail }) hu hm he ha
    rw [toNat_four_mul hi] at henv
    have hcheck : clientMove t = t.requestRead (BitVec.ofNat 32 (4 * i))
        (.restoreCheck (BitVec.ofNat 32 (4 * i)) w i) := by
      simp only [clientMove, hclient, hout, if_true]
    obtain ⟨t', hreach', hphase', hout', henv', hclient', hinputs', -, hsrc'⟩ :=
      served_read hphase hphase hcheck henv ha
    have hsize : 4 * i + 3 < eepromSize := by unfold eepromSize; omega
    rw [toNat_four_mul hi, Memory.readWord_writeWord_same m _ w hwf hsize] at hout'
    have hnext : clientMove t' = t'.restoreNext (BitVec.ofNat 32 (4 * (i + 1))) (i + 1) := by
      simp only [clientMove, hclient', withWord_of_outcome hout', State.restoreVerify, if_true,
        Nat.mul_succ, BitVec.ofNat_add]
    obtain ⟨t'', hend, hinputs'', hsrc''⟩ := ih hphase' hphase' hnext henv' (hsrc'.trans hsrc)
      (Memory.wf_writeWord m _ w hwf hsize) (by omega)
    rw [Nat.add_right_comm] at hend
    exact ⟨t'', .of_reaches (hreach.trans hreach') hend,
      hinputs''.trans (hinputs'.trans hinputs), hsrc''⟩

/-- No environment refuses an unlock word (30_encoding.md R105). -/
theorem refuses_unlock (e : Environment) :
    e.refuses Config.unlockWord1 = false ∧ e.refuses Config.unlockWord2 = false := by
  cases e with
  | oracle answers => exact ⟨rfl, rfl⟩
  | refCtl c =>
    have hwords : reservedCommand Config.unlockWord1 = false ∧
        reservedCommand Config.unlockWord2 = false := by decide
    exact hwords

theorem Environment.Holds.afterCommand {e : Environment} {mode : CtlMode} {m : Memory} {w : Word}
    (h : e.Holds mode m) (hw : cmdCode w ≠ Config.codeWrite) :
    (e.afterWrite Config.offCmd w).Holds mode m := by
  obtain ⟨c, rfl, hserv⟩ := h
  obtain ⟨hmode, hstuck, hpolls, hmem⟩ := hserv.commanded_of_ne hw
  exact ⟨_, rfl, hmode, hstuck, hpolls, hmem⟩

theorem step_pause {s : State} {us : Nat} {rest : List Input} (hs : s.phase = .idle)
    (hc : s.client = .none) (hi : s.inputs = .pause us :: rest) :
    step s = .next (State.sleepUs { s with inputs := rest } us) := by
  rw [step_idle hs, clientMove_ready hc hi rfl]
  rfl

theorem offsetOk_offCmd : offsetOk Config.offCmd = true := by
  decide

/-- A raw command word at the head of the stream is one write. -/
theorem step_rawCommand {s : State} {w : Word} {rest : List Input} (hs : s.phase = .idle)
    (hc : s.client = .none) (hu : s.portUsable = true)
    (hi : s.inputs = .rawWrite Config.offCmd w :: rest) (hw : s.env.refuses w = false) :
    step s = .next (State.writeReg { s with inputs := rest } Config.offCmd w) :=
  (step_rawWrite hs hc hu hi).trans
    (rawWrite_run (s := { s with inputs := rest }) hs offsetOk_offCmd hw)

/-- Restore's first step writes the first unlock word; the rest of its sequence goes before the
stream (R220). -/
theorem step_restore {s : State} {rest : List Input} (hs : s.phase = .idle)
    (hc : s.client = .none) (hu : s.portUsable = true) (hsource : s.sourceUsable = true)
    (hi : s.inputs = .restore :: rest) :
    step s = .next (State.writeReg { s with inputs := restoreSequence.tail ++ rest }
      Config.offCmd Config.unlockWord1) := by
  have hready : s.ready .restore = true := by simp only [State.ready, hu, hsource, Bool.and_self]
  rw [step_idle hs, clientMove_ready hc hi hready]
  exact rawWrite_run (s := { s with inputs := restoreSequence.tail ++ rest }) hs offsetOk_offCmd
    (refuses_unlock _).1

/-- The state in which Restore has made its unlock sequence and comes to its loop. -/
def State.unlocked (s : State) (rest : List Input) : State :=
  { s with
    inputs := .restoreLoop :: rest,
    history := s.history ++ [.wr Config.offCmd Config.unlockWord1] ++
      [.sleep Config.unlockDelayUs] ++ [.wr Config.offCmd Config.unlockWord2] ++
      [.sleep Config.unlockDelayUs],
    env := (s.env.afterWrite Config.offCmd Config.unlockWord1).afterWrite Config.offCmd
      Config.unlockWord2 }

theorem reaches_unlocked {s : State} {rest : List Input} (hs : s.phase = .idle)
    (hc : s.client = .none) (hu : s.portUsable = true) (hsource : s.sourceUsable = true)
    (hi : s.inputs = .restore :: rest) : Reaches s (s.unlocked rest) := by
  refine (reaches_of_step (step_restore hs hc hu hsource hi)).trans ?_
  refine .trans (reaches_of_step (step_pause ?_ ?_ rfl)) ?_
  · exact hs
  · exact hc
  refine .trans (reaches_of_step (step_rawCommand ?_ ?_ ?_ rfl (refuses_unlock _).2)) ?_
  · exact hs
  · exact hc
  · exact hu
  exact reaches_of_step (step_pause (s := { s.unlocked rest with
    inputs := .pause Config.unlockDelayUs :: .restoreLoop :: rest
    history := _ }) hs hc rfl)

/-- Restore of a source of whole words and at most three further bytes. -/
theorem finished_restore {s : State} {rest : List Input} {ws : List Word} {tail : List Byte}
    {m : Memory} (hs : s.phase = .idle) (hc : s.client = .none) (hu : s.portUsable = true)
    (hready : s.sourceUsable = true) (hi : s.inputs = .restore :: rest)
    (hsource : s.source = ws.flatMap wordBytes ++ tail) (htail : tail.length < 4)
    (hlen : ws.length ≤ 0x4000) (he : s.env.Holds .a m) (hwf : m.wf) :
    ∃ t, Finished s t (.restored ws.length) (m.writeWords 0 ws) ∧ t.inputs = rest ∧
      t.source = [] := by
  have hloop : clientMove (s.unlocked rest) =
      State.restoreNext { s.unlocked rest with inputs := rest } (BitVec.ofNat 32 (4 * 0)) 0 := by
    refine clientMove_ready (s := s.unlocked rest) hc rfl ?_
    simp only [State.ready, State.unlocked, hu, hready, Bool.and_self]
  have henv : (s.unlocked rest).env.Holds .a m :=
    (he.afterCommand (by decide)).afterCommand (by decide)
  obtain ⟨t, hend, hinputs, hempty⟩ := finished_restoreNext (s := s.unlocked rest) hs
    (u := { s.unlocked rest with inputs := rest }) hs hloop henv hsource htail hwf
    ((Nat.zero_add _).trans_le hlen)
  rw [Nat.zero_add] at hend
  exact ⟨t, .of_reaches (reaches_unlocked hs hc hu hready hi) hend, hinputs, hempty⟩

/-- Settles O56: the unlock sequence leaves the EEPROM, the loop stores word after word and reads
each back; an unusable source makes the input not ready. -/
theorem restoreWritesSource : Obligations.RestoreWritesSource := by
  constructor
  · intro s c ws tail rest hs hc hu hready hi hsource htail hlen he hmode hstuck hpolls hwf
    have hholds : s.env.Holds .a c.mem := ⟨c, he, hmode, hstuck, hpolls, rfl⟩
    obtain ⟨t, ⟨⟨n, hn⟩, hphase, hclient, hreport, henv⟩, hinputs, hempty⟩ :=
      finished_restore hs hc hu hready hi hsource htail hlen hholds hwf
    refine ⟨n, t, hn, hphase, hclient, hreport, hempty, hinputs, fun i w hw j hj => ?_,
      fun a ha => ?_⟩
    · have hbyte := Memory.readByte_writeWords_same (i := 0) hwf
        (by unfold eepromSize; omega) hw hj
      rw [Nat.zero_add] at hbyte
      rw [henv.eepromByte, hbyte]
    · rw [henv.eepromByte, hholds.eepromByte,
        Memory.readByte_writeWords_other (.inr (by rwa [Nat.zero_add]))]
  · intro s rest hs hc hunusable x hx hi
    have hunready : s.ready x = false := by
      fin_cases hx <;> simp only [State.ready, hunusable, Bool.and_false]
    exact ⟨_, step_unready hs hc hi hunready, rfl, rfl, hs, rfl, rfl, rfl⟩

end Sys2Proof.Machine

/-! ## Register words outside their phase (60_exceptions.md R270, 70_reset_and_hazards.md R298) -/

namespace Sys2Proof.Machine

theorem issueWord_outOfPhase {s : State} {own : Phase} {after : State → State} {off w : Word}
    (hidle : s.phase ≠ .idle) (hfault : s.phase ≠ .fault) (hown : s.phase ≠ own) :
    s.issueWord own after off w = .refused .issueOutOfPhase := by
  rw [State.issueWord, if_neg hown, if_neg hidle, if_neg hfault]

theorem rawCommand_duringOperation {s : State} {w : Word} (hidle : s.phase ≠ .idle)
    (hfault : s.phase ≠ .fault) : s.rawCommand w = .refused .rawWriteDuringOperation := by
  rw [State.rawCommand, if_neg hidle, if_neg hfault]

/-- Settles O19: in `IDLE` each word is one raw write, and an operation issues a command or
address-high word only in the word's own phase and no raw command at all. -/
theorem registerWordsOutOfPhase : Obligations.RegisterWordsOutOfPhase := by
  intro s k b l h y
  constructor
  · intro hp
    exact ⟨exec_idle_word hp rfl, exec_idle_word hp rfl, exec_idle_word hp rfl,
      exec_idle_word hp rfl, exec_idle_word hp rfl⟩
  · intro hidle hfault
    exact ⟨issueWord_outOfPhase hidle hfault, issueWord_outOfPhase hidle hfault,
      issueWord_outOfPhase hidle hfault, issueWord_outOfPhase hidle hfault,
      issueWord_outOfPhase hidle hfault, rawCommand_duringOperation hidle hfault,
      rawCommand_duringOperation hidle hfault⟩

end Sys2Proof.Machine

/-! ## Every operation ends (42_busy_poll.md R168, 70_reset_and_hazards.md R304) -/

namespace Sys2Proof.Machine

/-- The most steps an operation can still take from a phase, with the poll counter at `n`. A poll
from there on is at most `100 - n` rounds of an attempt and its sleep. -/
def Phase.stepsLeft (p : Phase) (n : Nat) : Nat :=
  match p with
  | .idle | .fault => 0
  | .rdAhR => 204
  | .rdAhW => 203
  | .rdCmdR => 202
  | .rdCmdW => 201
  | .rdPoll => 2 * (100 - n)
  | .rdSleep => 2 * (100 - n) + 1
  | .rdDataR => 1
  | .wrAhR => 406
  | .wrAhW => 405
  | .wrEnR => 404
  | .wrEnW => 403
  | .wrEnPoll => 2 * (100 - n) + 202
  | .wrEnSleep => 2 * (100 - n) + 203
  | .wrDataW => 203
  | .wrCmdR => 202
  | .wrCmdW => 201
  | .wrPoll => 2 * (100 - n)
  | .wrSleep => 2 * (100 - n) + 1

/-- The most register transactions an operation can still make from a phase. -/
def Phase.transactionsLeft (p : Phase) (n : Nat) : Nat :=
  match p with
  | .idle | .fault => 0
  | .rdAhR => 105
  | .rdAhW => 104
  | .rdCmdR => 103
  | .rdCmdW => 102
  | .rdPoll | .rdSleep => 100 - n + 1
  | .rdDataR => 1
  | .wrAhR => 207
  | .wrAhW => 206
  | .wrEnR => 205
  | .wrEnW => 204
  | .wrEnPoll | .wrEnSleep => 100 - n + 103
  | .wrDataW => 103
  | .wrCmdR => 102
  | .wrCmdW => 101
  | .wrPoll | .wrSleep => 100 - n

/-- While it polls, the counter has not passed 100. Elsewhere an operation does not read it, and it
may hold anything (10_state.md R23). -/
structure State.PollInRange (s : State) : Prop where
  poll : s.phase.isPoll = true → s.attempt < 100
  sleep : s.phase.isSleep = true → s.attempt ≤ 100

/-- An operation has ended, in success or in a fault. -/
def Ends (s : State) : Prop :=
  EndedOk s ∨ EndedInFault s

/-- A step from `s` to `t` is one event of the operation `op` that brings its end nearer. -/
structure Nearer (op : Op) (s t : State) : Prop where
  status : (t.phase.operation = some op ∧ t.PollInRange) ∨ Ends t
  steps : t.phase.stepsLeft t.attempt < s.phase.stepsLeft s.attempt
  event : ∃ e, t.history = s.history ++ [e] ∧
    transactions [e] + t.phase.transactionsLeft t.attempt ≤
      s.phase.transactionsLeft s.attempt

theorem transactions_append (h h' : List Event) :
    transactions (h ++ h') = transactions h + transactions h' := by
  rw [transactions, List.filter_append, List.length_append]
  rfl

/-- A poll attempt counts, and the counter leaves room for it. -/
theorem nearer_pollAttempt {s : State} {kind : PollKind} {op : Op} (hp : s.phase = kind.pollPhase)
    (hop : s.phase.operation = some op) (h : s.PollInRange) :
    Nearer op s (s.pollAttempt kind.sleepPhase kind.onClear) := by
  have hn : s.attempt < 100 := h.poll (by cases kind <;> rw [hp] <;> rfl)
  have hread (v : Word) : transactions [.rd Config.offCmd v] = 1 := rfl
  obtain ⟨phase⟩ := s
  subst hp
  obtain ⟨-, he⟩ | ⟨-, he⟩ := pollAttempt_cases _ kind.sleepPhase kind.onClear <;> rw [he] <;>
    cases kind <;> cases hop
  case' inl.read | inl.writeEnable | inl.writeCommit =>
    refine ⟨.inl ⟨rfl, nofun, fun _ => hn⟩, ?_, _, rfl, ?_⟩
  case' inr.read | inr.writeEnable =>
    refine ⟨.inl ⟨rfl, nofun, nofun⟩, ?_, _, rfl, ?_⟩
  case' inr.writeCommit =>
    refine ⟨.inr (.inl ⟨rfl, .inl rfl⟩), ?_, _, rfl, ?_⟩
  all_goals
    simp only [PollKind.pollPhase, PollKind.sleepPhase, PollKind.onClear, State.complete,
      Phase.stepsLeft, Phase.transactionsLeft, hread] at hn ⊢
    omega

/-- A step of an operation brings its end nearer. -/
theorem nearer_operationStep {s : State} {op : Op} (hop : s.phase.operation = some op)
    (h : s.PollInRange) : Nearer op s (operationStep s) := by
  obtain ⟨phase⟩ := s
  cases phase <;> cases hop <;> simp only [operationStep, engineMicroStep]
  case rdPoll => exact nearer_pollAttempt (kind := .read) rfl rfl h
  case wrEnPoll => exact nearer_pollAttempt (kind := .writeEnable) rfl rfl h
  case wrPoll => exact nearer_pollAttempt (kind := .writeCommit) rfl rfl h
  case rdSleep | wrEnSleep | wrSleep =>
    obtain ⟨-, he⟩ | ⟨hne, he⟩ := pollSleep_cases _ _ _ <;> rw [he]
    · exact ⟨.inr (.inr ⟨rfl, _, rfl⟩), Nat.zero_lt_succ _, _, rfl, Nat.zero_le _⟩
    · exact ⟨.inl ⟨rfl, fun _ => (h.sleep rfl).lt_of_ne hne, nofun⟩, Nat.lt_add_one _, _, rfl,
        (Nat.zero_add _).le⟩
  case rdDataR =>
    exact ⟨.inr (.inl ⟨rfl, .inr ⟨_, rfl⟩⟩), Nat.lt_add_one _, _, rfl, Nat.le_refl _⟩
  case rdCmdW | wrEnW | wrCmdW =>
    exact ⟨.inl ⟨rfl, fun _ => Nat.zero_lt_succ 99, nofun⟩, Nat.lt_add_one _, _, rfl, Nat.le_refl _⟩
  all_goals exact ⟨.inl ⟨rfl, nofun, nofun⟩, Nat.lt_add_one _, _, rfl, Nat.le_refl _⟩

/-- An operation in progress ends within the steps and the transactions that are left. -/
theorem ends_within {s : State} {op : Op}
    (h : (s.phase.operation = some op ∧ s.PollInRange) ∨ Ends s) :
    ∃ n t es, n ≤ s.phase.stepsLeft s.attempt ∧ runSteps n s = .next t ∧ t.inputs = s.inputs ∧
      Ends t ∧ t.history = s.history ++ es ∧
      transactions es ≤ s.phase.transactionsLeft s.attempt := by
  induction hn : s.phase.stepsLeft s.attempt using Nat.strong_induction_on generalizing s with
  | h left ih =>
    subst hn
    obtain ⟨hop, hrange⟩ | hends := h
    · obtain ⟨hstatus, hsteps, e, hhist, htrans⟩ := nearer_operationStep hop hrange
      obtain ⟨n, t, es, hn, hrun, hinputs, hends, hhist', htrans'⟩ := ih _ hsteps hstatus rfl
      have hstand : (operationStep s).inputs = s.inputs :=
        (congrArg State.inputs (operationStep_standing s) :)
      refine ⟨n + 1, t, [e] ++ es, hn.trans_lt hsteps,
        (runSteps_next (step_of_operation hop)).trans hrun, hinputs.trans hstand, hends, ?_, ?_⟩
      · rw [hhist', hhist, List.append_assoc]
      · rw [transactions_append]
        omega
    · exact ⟨0, s, [], Nat.zero_le _, rfl, rfl, hends, (List.append_nil _).symm, Nat.zero_le _⟩

/-- A request at the head of the stream is taken off it and accepted or rejected (R181). -/
theorem step_presents {s : State} {op : Op} {addr data : Word} {rest : List Input}
    (h : Presents s op addr data rest) :
    step s = State.accept { s with inputs := rest } op addr data := by
  obtain ⟨hp, hc, hu, hi⟩ := h
  rw [step_idle hp, clientMove_ready hc hi hu]
  exact run_request op addr data _

/-- Acceptance makes no transaction; it starts the operation, or ends it in a fault. -/
theorem status_of_accept {s u : State} {op : Op} {addr data : Word}
    (h : s.accept op addr data = .next u) :
    u.inputs = s.inputs ∧ u.history = s.history ∧
      ((u.phase.operation = some op ∧ u.PollInRange) ∨ Ends u) ∧
      u.phase.stepsLeft u.attempt ≤ (firstPhase op).stepsLeft 0 ∧
      u.phase.transactionsLeft u.attempt ≤ (firstPhase op).transactionsLeft 0 := by
  obtain ⟨-, ⟨-, rfl⟩ | ⟨-, rfl⟩⟩ := accept_next h
  · cases op <;>
      exact ⟨rfl, rfl, .inl ⟨rfl, nofun, nofun⟩, Nat.le_refl _, Nat.le_refl _⟩
  · exact ⟨rfl, rfl, .inr (.inr ⟨rfl, _, rfl⟩), Nat.zero_le _, Nat.zero_le _⟩

/-- Settles O37: the acceptance is one step without a transaction, and then every step of the
operation brings its end nearer. -/
theorem operationsTerminate : Obligations.OperationsTerminate := by
  intro s op addr data rest h
  obtain ⟨u, hu⟩ := accept_idle (s := { s with inputs := rest }) (op := op) (addr := addr)
    (data := data) h.1
  obtain ⟨hinputs, hhist, hstatus, hsteps, htrans⟩ := status_of_accept hu
  obtain ⟨n, t, es, hn, hrun, hinputs', hends, hhist', htrans'⟩ := ends_within hstatus
  have hn := hn.trans hsteps
  have htrans := htrans'.trans htrans
  rw [hhist] at hhist'
  refine ⟨n + 1, t, es, Nat.le_add_left 1 n,
    (runSteps_next ((step_presents h).trans hu)).trans hrun, hinputs'.trans hinputs, hends,
    hhist', ?_⟩
  cases op with
  | read => exact ⟨fun _ => ⟨Nat.succ_le_succ hn, htrans⟩, nofun⟩
  | write => exact ⟨nofun, fun _ => ⟨Nat.succ_le_succ hn, htrans⟩⟩

end Sys2Proof.Machine

/-! ## The steps of a Write, phase by phase (43_operations.md R191, R192, R195) -/

namespace Sys2Proof.Machine

/-- Settles O26: the two steps are the engine's in their phases. -/
theorem writeAddressHighUpdate : Obligations.WriteAddressHighUpdate := fun _ =>
  ⟨fun hp => step_in_phase (op := .write) hp rfl, fun hp => step_in_phase (op := .write) hp rfl⟩

/-- The write-enable word with its literals (41_command_encoder.md R142). -/
theorem cmdWrenWord_literal (old : Word) :
    cmdWrenWord old = (old &&& 0xFFE00000#32) ||| 0x0000C000#32 := by
  rw [cmdWrenWord, cmdWord, BitVec.or_zero, BitVec.or_zero]
  rfl

/-- Settles O27: the four steps are the engine's in their phases. -/
theorem writeCommandIssues : Obligations.WriteCommandIssues := by
  intro s
  rw [← cmdWrenWord_literal]
  exact ⟨fun hp => step_in_phase (op := .write) hp rfl,
    fun hp => step_in_phase (op := .write) hp rfl, fun hp => step_in_phase (op := .write) hp rfl,
    fun hp => step_in_phase (op := .write) hp rfl⟩

end Sys2Proof.Machine

/-! ## The address-high byte (40_address_splitter.md R124, R125, R128) -/

namespace Sys2Proof.Machine

theorem ahRdByte_eq (addr : Word) : ahRdByte addr = addr.extractLsb' 24 8 :=
  BitVec.setWidth_ushiftRight_eq_extractLsb

theorem ahWrByte_eq (addr : Word) : ahWrByte addr = addr.extractLsb' 14 8 :=
  BitVec.setWidth_ushiftRight_eq_extractLsb

theorem ahWrByte_of_lt {addr : Word} (h : addr < 0x4000#32) : ahWrByte addr = 0#8 := by
  have hlt : addr.toNat < 0x4000 := h
  refine BitVec.eq_of_toNat_eq ?_
  rw [ahWrByte_eq, BitVec.extractLsb'_toNat, Nat.shiftRight_eq_div_pow, Nat.div_eq_of_lt hlt]
  rfl

/-- Settles O7: a shift cut to 8 bits is a field of the address. -/
theorem addressHighBytes : Obligations.AddressHighBytes := fun addr =>
  ⟨ahRdByte_eq addr, ahWrByte_eq addr, ahRdByte_of_legal, ahWrByte_of_lt⟩

/-- The words of a Write hold no more of an address than `addr[21:2]`. -/
theorem sameWords_write {a b : Word} (h : a.extractLsb' 2 20 = b.extractLsb' 2 20) :
    SameWords .write a b := by
  have hbyte : a.extractLsb' 14 8 = b.extractLsb' 14 8 :=
    extractLsb'_eq_of_le h (by decide) (by decide)
  have hb13 : a.extractLsb' 15 1 = b.extractLsb' 15 1 :=
    extractLsb'_eq_of_le h (by decide) (by decide)
  have hlo : a.extractLsb' 2 13 = b.extractLsb' 2 13 :=
    extractLsb'_eq_of_le h (by decide) (by decide)
  refine ⟨?_, fun old => ?_⟩
  · rw [ahWrByte_eq, ahWrByte_eq, hbyte]
  · rw [cmdWriteWord_eq, cmdWriteWord_eq, hb13, hlo]

/-- Settles O39: the words of a Write are the same for two such addresses. -/
theorem writeAddressesAlias : Obligations.WriteAddressesAlias := by
  intro s a b data rest n hp hc hu ha hb h
  exact observe_runSteps_request data rest n hp hc hu ha hb (sameWords_write h)

end Sys2Proof.Machine

/-! ## The round trip (43_operations.md R199, 90_conflicts.md C1) -/

namespace Sys2Proof.Machine

/-- A word that an address selects lies in the EEPROM address space. -/
theorem wordIndex_lt (mode : CtlMode) (byte : Byte) (addr : Word) :
    4 * mode.wordIndex byte addr + 3 < eepromSize := by
  unfold CtlMode.wordIndex eepromSize
  split
  · have := (addr.extractLsb' 15 1 ++ addr.extractLsb' 2 13).isLt
    omega
  · have := (byte ++ addr.extractLsb' 15 1 ++ addr.extractLsb' 2 13).isLt
    omega

/-- A presented legal request is taken off the stream and its operation begins. -/
theorem reaches_accepted {s : State} {op : Op} {addr data : Word} {rest : List Input}
    (h : Presents s op addr data rest) (hl : legal addr = true) :
    Reaches s (State.accepted { s with inputs := rest } op addr data) :=
  reaches_of_step (step_presents_legal h hl)

/-- A Read after a Write of the same address returns the data, where both select the same word. -/
theorem read_after_write {s : State} {mode : CtlMode} {m : Memory} {addr data d0 : Word}
    {rest : List Input}
    (h : Presents s .write addr data (.request (encodeReq .read addr d0) :: rest))
    (hl : legal addr = true) (he : s.env.Holds mode m) (hwf : m.wf)
    (hsame : mode.wordIndex (ahWrByte addr) addr = mode.wordIndex (ahRdByte addr) addr) :
    ∃ n t, runSteps n s = .next t ∧ t.phase = .idle ∧ t.outcome = some (.okValue data) ∧
      t.inputs = rest := by
  have hwrite := reaches_accepted h hl
  obtain ⟨-, hc, hu, -⟩ := h
  obtain ⟨t, ht⟩ := ended_write
    (s := State.accepted { s with inputs := .request (encodeReq .read addr d0) :: rest }
      .write addr data) rfl he
  have hpresents : Presents t .read addr d0 rest :=
    ⟨ht.phase, (congrArg State.client ht.standing).trans hc,
      (congrArg State.portUsable ht.standing).trans hu, congrArg State.inputs ht.standing⟩
  obtain ⟨v, hv⟩ := ended_read (s := State.accepted { t with inputs := rest } .read addr d0) rfl
    ht.env
  obtain ⟨n, hn⟩ := ((hwrite.trans ht.reaches).trans (reaches_accepted hpresents hl)).trans
    hv.reaches
  have hout := hv.outcome
  rw [State.accepted, State.accepted, hsame,
    Memory.readWord_writeWord_same m _ data hwf (wordIndex_lt _ _ _)] at hout
  exact ⟨n, v, hn, hv.phase, hout, (congrArg State.inputs hv.standing :)⟩

/-- Settles O41: mode A selects the word by the command word alone, in which both operations write
the same address bits. -/
theorem roundTripModeA : Obligations.RoundTripModeA := by
  intro s c addr data d0 rest h hl he hmode hstuck hpolls hwf
  exact read_after_write h hl ⟨c, he, hmode, hstuck, hpolls, rfl⟩ hwf rfl

/-- Settles O42: mode B also uses the address-high byte, which is 0 in the Read of a legal address
and, by hypothesis, in the Write. -/
theorem roundTripModeB : Obligations.RoundTripModeB := by
  intro s c addr data d0 rest h hl hbyte he hmode hstuck hpolls hwf
  refine read_after_write h hl ⟨c, he, hmode, hstuck, hpolls, rfl⟩ hwf ?_
  rw [hbyte, ahRdByte_of_legal hl]

end Sys2Proof.Machine

/-! ## What the decoder is given (41_command_encoder.md R144, 30_encoding.md R105) -/

namespace Sys2Proof.Machine

/-- A move presents only what the decoder knows, and no refusal of the client is the decoder's. -/
def ClientMove.Readable (m : ClientMove) : Prop :=
  match m with
  | .present p _ => ∃ i, decode p = .ok i
  | .refuse r => ∀ e, r ≠ .undecodable e
  | _ => True

/-- Every request decodes. -/
theorem readable_request (bits : BitVec 65) (u : State) :
    (ClientMove.present (.req bits) u).Readable :=
  ⟨decodeReq bits, rfl⟩

theorem readable_ite {p : Prop} [Decidable p] {m k : ClientMove} (hm : m.Readable)
    (hk : k.Readable) : (if p then m else k).Readable := by
  split
  · exact hm
  · exact hk

theorem readable_dumpNext (s : State) (a last : Nat) : (s.dumpNext a last).Readable :=
  readable_ite (readable_request _ _) trivial

theorem readable_restoreNext (s : State) (addr : Word) (count : Nat) :
    (s.restoreNext addr count).Readable := by
  unfold State.restoreNext
  split
  · exact readable_request _ _
  · trivial

theorem readable_restoreVerify (s : State) (addr w : Word) (count : Nat) (r : Word) :
    (s.restoreVerify addr w count r).Readable :=
  readable_ite (readable_restoreNext s _ _) trivial

theorem readable_liveNext (s : State) (a last n : Nat) (buf : List Byte) :
    (s.liveNext a last n buf).Readable :=
  readable_ite (readable_request _ _) trivial

theorem readable_liveStart (s : State) (w0 : Word) : (s.liveStart w0).Readable :=
  readable_ite (readable_liveNext s _ _ _ _) trivial

/-- A raw write presents its word only where the decoder knows it. -/
theorem readable_rawWrite (s : State) (off w : Word) : (s.rawWrite off w).Readable := by
  refine readable_ite (readable_ite ?_ trivial) fun _ => nofun
  cases hd : decodeCmd w with
  | ok i => exact ⟨i, hd⟩
  | error e => exact readable_ite (fun _ => nofun) trivial

theorem readable_start (s : State) (x : Input) : (s.start x).Readable := by
  cases x with
  | request bits => exact readable_request _ _
  | rawWrite off w => exact readable_rawWrite s off w
  | pause us => trivial
  | dump => exact readable_request _ _
  | restore =>
    exact readable_rawWrite { s with inputs := restoreSequence.tail ++ s.inputs } Config.offCmd
      Config.unlockWord1
  | restoreLoop => exact readable_restoreNext s _ _
  | decodeLive => exact readable_request _ _
  | decodeFile =>
    simp only [State.start, State.fileDecode]
    split <;> trivial

theorem readable_nextInput (s : State) : s.nextInput.Readable := by
  unfold State.nextInput
  split
  · trivial
  · next x rest _ =>
    cases s.ready x with
    | true => exact readable_start { s with inputs := rest } x
    | false => trivial

theorem readable_withWord {s : State} {k : Word → ClientMove} (hk : ∀ v, (k v).Readable) :
    (s.withWord k).Readable := by
  unfold State.withWord
  split
  · exact hk _
  · trivial

theorem readable_clientMove (s : State) : (clientMove s).Readable := by
  unfold clientMove
  cases s.client with
  | stopped => trivial
  | none => exact readable_nextInput s
  | dumpHead => exact readable_withWord fun _ => readable_dumpNext _ _ _
  | dumpWord a last => exact readable_withWord fun _ => readable_dumpNext _ _ _
  | restoreWritten addr w count => exact readable_ite (readable_request _ _) trivial
  | restoreCheck addr w count => exact readable_withWord fun v => readable_restoreVerify s _ _ _ v
  | liveHead => exact readable_withWord fun v => readable_liveStart s v
  | liveWord a last n buf => exact readable_withWord fun _ => readable_liveNext s _ _ _ _

/-- Every instruction completes in `IDLE`. -/
theorem exec_idle_next {s : State} (i : Instr) (hp : s.phase = .idle) :
    ∃ t, exec i s = .next t := by
  cases i with
  | read addr data => exact accept_idle hp
  | write addr data => exact accept_idle hp
  | _ => exact ⟨_, exec_idle_word hp rfl⟩

/-- A readable move run in `IDLE` is not refused as undecodable. -/
theorem ClientMove.Readable.run_ne {m : ClientMove} {e : DecodeError} (h : m.Readable)
    (hp : ∀ p u, m = .present p u → u.phase = .idle) : m.run ≠ .refused (.undecodable e) := by
  cases m with
  | present p u =>
    obtain ⟨i, hi⟩ := h
    obtain ⟨t, ht⟩ := exec_idle_next i (hp p u rfl)
    simp only [ClientMove.run, hi, ht]
    exact nofun
  | refuse r => exact fun hr => h e (Host.Outcome.refused.inj hr)
  | _ => exact nofun

/-- Settles O51: in `IDLE` the client's move is readable; in an operation the step is the engine's,
whose issued words decode. -/
theorem fetchedWordsDecode : Obligations.FetchedWordsDecode := by
  intro s e
  by_cases hidle : s.phase = .idle
  · rw [step_idle hidle]
    exact (readable_clientMove s).run_ne fun p u hm => (present_phase hm).trans hidle
  · by_cases hfault : s.phase = .fault
    · rw [step_fault hfault]
      exact nofun
    · rw [step_operation hidle hfault]
      exact nofun

end Sys2Proof.Machine

/-! ## Restore's verification (44_client_sequences.md R224) -/

namespace Sys2Proof.Machine

/-- A client that has stopped takes no further step (log entry 18). -/
theorem step_stopped {s : State} (hp : s.phase = .idle) (hc : s.client = .stopped) :
    step s = .fault .clientStopped := by
  rw [step_idle hp, clientMove, hc]
  rfl

/-- Settles O55: the Read is presented once the Write is `Ok`, and a mismatch is a quiet move into
the client's stop. -/
theorem restoreVerifies : Obligations.RestoreVerifies := by
  refine ⟨fun s addr w count hp hc hout => ?_, fun s addr w r count hp hc hout hne => ?_⟩
  · have hmove : clientMove s = s.requestRead addr (.restoreCheck addr w count) := by
      simp only [clientMove, hc, hout, if_true]
    exact step_of_fetch_encode (i := .read addr 0#32) (fetch_of_present hp hmove)
  · have hmove : clientMove s = s.fail (.verification addr w r) := by
      simp only [clientMove, hc, withWord_of_outcome hout, State.restoreVerify, if_neg hne]
    exact ⟨_, step_quiet hp hmove, rfl, rfl, hp, rfl, step_stopped hp rfl⟩

end Sys2Proof.Machine

/-! ## Requests in an operation and in `FAULT`, and reset (10_state.md R28, R45,
70_reset_and_hazards.md R290, R296) -/

namespace Sys2Proof.Machine

/-- Settles O15: a request is accepted in `IDLE` only. -/
theorem requestRefusedWhileBusy : Obligations.RequestRefusedWhileBusy := by
  intro s addr data hidle hfault
  have haccept (op : Op) : s.accept op addr data = .refused .requestWhileBusy := by
    rw [State.accept, if_neg hidle, if_neg hfault]
  exact ⟨haccept .read, haccept .write⟩

theorem accept_fault {s : State} {op : Op} {addr data : Word} (hp : s.phase = .fault) :
    s.accept op addr data = .fault .faultTerminal := by
  rw [State.accept, hp]
  rfl

theorem rawCommand_fault {s : State} {w : Word} (hp : s.phase = .fault) :
    s.rawCommand w = .fault .faultTerminal := by
  rw [State.rawCommand, hp]
  rfl

theorem issueWord_fault {s : State} {own : Phase} {after : State → State} {off w : Word}
    (hp : s.phase = .fault) (hown : own ≠ .fault) :
    s.issueWord own after off w = .fault .faultTerminal := by
  rw [State.issueWord, hp, if_neg hown.symm]
  rfl

/-- Settles O50: `FAULT` is neither `IDLE` nor a phase that issues a word. -/
theorem faultIsTerminal : Obligations.FaultIsTerminal := by
  refine fun s hp => ⟨step_fault hp, fun i => ?_⟩
  cases i with
  | read addr data => exact accept_fault hp
  | write addr data => exact accept_fault hp
  | unlock1 => exact rawCommand_fault hp
  | unlock2 => exact rawCommand_fault hp
  | _ => exact issueWord_fault hp nofun

/-- Settles O48: at reset the counter is 0, no operation runs, no sequence waits and no EEPROM
content is listed. -/
theorem invariantsAtReset : Obligations.InvariantsAtReset :=
  ⟨⟨Nat.zero_le _, nofun, nofun, ⟨nofun, nofun⟩, nofun, nofun⟩, clientInv_of_awaits_none rfl,
    trivial⟩

/-- Settles O49: each value stands in the definition of the reset state. -/
theorem resetState : Obligations.ResetState :=
  ⟨rfl, rfl, rfl, fun _ => rfl, fun _ => ⟨rfl, rfl, rfl, rfl⟩⟩

end Sys2Proof.Machine

/-! ## The unlock sequence (44_client_sequences.md R221, decision D17) -/

namespace Sys2Proof.Machine

/-- A raw command word and the sleep after it are two steps with one event each. -/
theorem runSteps_rawCommand_pause {s : State} {w : Word} {us : Nat} {rest : List Input}
    (hp : s.phase = .idle) (hc : s.client = .none) (hu : s.portUsable = true)
    (hi : s.inputs = .rawWrite Config.offCmd w :: .pause us :: rest)
    (hw : s.env.refuses w = false) :
    runSteps 2 s = .next { s with
      inputs := rest, history := s.history ++ [.wr Config.offCmd w, .sleep us],
      env := s.env.afterWrite Config.offCmd w } := by
  have hpause := step_pause (s := State.writeReg { s with inputs := .pause us :: rest }
    Config.offCmd w) hp hc rfl
  rw [runSteps_next (step_rawCommand hp hc hu hi hw), runSteps_next hpause, runSteps_zero]
  simp only [State.sleepUs, State.writeReg, List.append_assoc, List.cons_append, List.nil_append]

/-- Settles O53: the sequence is two raw commands, each with its sleep. -/
theorem unlockSequenceRuns : Obligations.UnlockSequenceRuns := by
  intro s rest hp hc hu hi
  have hfirst := runSteps_rawCommand_pause hp hc hu hi (refuses_unlock _).1
  refine (runSteps_add (m := 2) hfirst).trans ?_
  refine Eq.trans (runSteps_rawCommand_pause hp hc hu rfl (refuses_unlock _).2) ?_
  rw [List.append_assoc]
  rfl

end Sys2Proof.Machine

/-! ## The port-code labels (44_client_sequences.md R237) -/

namespace Sys2Proof.Machine

/-- Settles O59: the fields the labels carry are the shifts of the statement. -/
theorem portLabels : Obligations.PortLabels := by
  refine ⟨fun pc => ?_, rfl, rfl⟩
  rw [portLabel, BitVec.setWidth_ushiftRight_eq_extractLsb,
    BitVec.setWidth_eq_extractLsb' (by decide), BitVec.setWidth_eq_extractLsb' (by decide)]

end Sys2Proof.Machine
